-- ==== Sys2Proof/Word.lean ====
section
/-! DEFINITION. The word and byte types (00_scope.md R8) and the fixed groups of like things the spec names:
seven mux inputs, eight words of state, thirty-two words of a block. Their accessors stand in Machine/Vec.lean. -/

namespace Sys2Proof

/-- The 32-bit word of every datapath register (00_scope.md R8, R17). -/
abbrev Word := BitVec 32

/-- One byte of `digest_bytes` (20_memory.md R62). -/
abbrev Byte := BitVec 8

/-- Seven like things, indexed 0..6: the inputs `a0..a6` of a boolean function, the selectors `phi_sel[0..6]`. -/
structure Vec7 (α : Type) where
  e0 : α
  e1 : α
  e2 : α
  e3 : α
  e4 : α
  e5 : α
  e6 : α
  deriving DecidableEq, Repr

/-- Eight like things, indexed 0..7: H, W, D, the IV (10_state.md R21, R23, R25). -/
structure Vec8 (α : Type) where
  e0 : α
  e1 : α
  e2 : α
  e3 : α
  e4 : α
  e5 : α
  e6 : α
  e7 : α
  deriving DecidableEq, Repr

/-- Thirty-two like things in four rows of eight, as the spec's tables print them: entry `8 * q + j` is entry `j` of
row `q`. The block buffer M (10_state.md R24), a pass's word order and its round constants (42_pass_schedule_rom.md
R163, R164). -/
structure Vec32 (α : Type) where
  q0 : Vec8 α
  q1 : Vec8 α
  q2 : Vec8 α
  q3 : Vec8 α
  deriving DecidableEq, Repr

end Sys2Proof
end

