-- ==== Sys2Proof/Config.lean ====
section
/-! DEFINITION. The free values: the one uninterpreted constant from which every value the spec leaves open is drawn.
The block itself has no implementation parameter (00_scope.md R8, R9). -/

namespace Sys2Proof

/-- Every place where the spec says "any value" or "unspecified" (93_implementation_defined.md U3 to U8), so that two
open values of one moment are drawn apart from each other. -/
inductive FreeSite where
  /-- mux output at a reserved `fsel` (U4) -/
  | muxOut
  /-- mux input slot `k` driven by the reserved selector 7 (U5) -/
  | slot (k : Fin 7)
  /-- ROM output `fsel` at an invalid address (U3) -/
  | romFsel
  /-- ROM output `phi_sel[k]` at an invalid address (U3) -/
  | romPhi (k : Fin 7)
  /-- ROM output `widx` at an invalid address (U3) -/
  | romWidx
  /-- ROM output `rc` at an invalid address (U3) -/
  | romRc
  /-- tailor output word `i` at dw outside 4..8 (U6) -/
  | tailorOut (i : Fin 8)
  /-- H[i] after a reset edge (U7, U8) -/
  | resetH (i : Fin 8)
  /-- W[i] after a reset edge (U7, U8) -/
  | resetW (i : Fin 8)
  /-- M[k] after a reset edge (U7, U8) -/
  | resetM (k : Fin 32)
  /-- D[i] after a reset edge (U7) -/
  | resetD (i : Fin 8)
  /-- CFG_N after a reset edge (U7) -/
  | resetCfgN
  /-- CFG_DW after a reset edge (U7) -/
  | resetCfgDw
  /-- P after a reset edge (U7, U8) -/
  | resetP
  /-- S after a reset edge (U7, U8) -/
  | resetS
  /-- `state_out[i]` while PHASE = 0 (U7) -/
  | portStateOut (i : Fin 8)
  /-- `digest_out[i]` while FIN = 0 (U7) -/
  | portDigestOut (i : Fin 8)
  /-- `digest_bytes[j]` while FIN = 0 (U7) -/
  | portDigestByte (j : Fin 32)
  /-- `status_out[11:8]` while PHASE = 0 (U7) -/
  | portCfgDw
  /-- `status_out[14:12]` while PHASE = 0 (U7) -/
  | portCfgN
  deriving DecidableEq, Repr

/-- A supply of open values, one for each site. -/
abbrev AnyValue := FreeSite → Word

/-- DESIGN CHOICE (log 3), safe. The free values: draw number `draw` at site `site`. It has no body, so nothing can be
proved about its values. A site narrower than a word takes the low bits. -/
opaque Config.freeWord : Nat → FreeSite → Word

end Sys2Proof
end

