-- ==== Sys2Proof/Syntax.lean ====
section
/-! DEFINITION. The instructions: one constructor per row of spec/opcode_table.json, and the words that stand for them
on the wires of the four units (30_encoding.md). -/

namespace Sys2Proof

/-- The rows of the opcode table. The command rows (format cmd16) are executed by `haval_compression_core`; the others
are the codes on the wires between the units, which a host of one unit alone drives (30_encoding.md section 2). Bits the
table leaves open are kept as operands, so that no bit of an encoding is dropped. -/
inductive Instr where
  /-- NOP, command word 0x0000 (43_compression_core.md R200). -/
  | nop
  /-- INIT, `dw` = cmd[7:4], `n` = cmd[10:8], any values (R201; an illegal value is CONFIG_ERROR, R202). -/
  | init (dw : BitVec 4) (n : BitVec 3)
  /-- COMPRESS, command word 0x0002; its operand is the `blk` port (R203). -/
  | compress
  /-- FINALIZE, command word 0x0003 (R210). -/
  | finalize
  /-- RESERVED_OPC_4_7: OPC = 4 + lo, `rest` = cmd[15:4] (30_encoding.md R84). -/
  | reservedOpc4to7 (rest : BitVec 12) (lo : BitVec 2)
  /-- RESERVED_OPC_8_F: OPC = 8 + lo, `rest` = cmd[15:4] (30_encoding.md R84). -/
  | reservedOpc8toF (rest : BitVec 12) (lo : BitVec 3)
  /-- ILLEGAL_RESERVED_BITS: OPC = opc in 0..3 with a reserved bit set, `rest` = cmd[15:4] (30_encoding.md R83). -/
  | illegalReservedBits (rest : BitVec 12) (opc : BitVec 2)
  /-- F1, fsel = 1 (40_boolean_functions.md R112). -/
  | f1
  /-- F2, fsel = 2 (R113). -/
  | f2
  /-- F3, fsel = 3 (R114). -/
  | f3
  /-- F4, fsel = 4 (R115). -/
  | f4
  /-- F5, fsel = 5 (R116). -/
  | f5
  /-- FSEL_RESERVED, fsel = 0 (R118). -/
  | fselReserved
  /-- FSEL_RESERVED_6, fsel = 6 + lo (R118). -/
  | fselReserved6 (lo : BitVec 1)
  /-- TAILOR_DW8 (44_output_tailor.md R241). -/
  | tailorDw8
  /-- TAILOR_DW7 (R242). -/
  | tailorDw7
  /-- TAILOR_DW6 (R243). -/
  | tailorDw6
  /-- TAILOR_DW5 (R244). -/
  | tailorDw5
  /-- TAILOR_DW4 (R245). -/
  | tailorDw4
  /-- TAILOR_DW_OTHER, dw in 0..3 or 9..15 (R247). -/
  | tailorDwOther (dw : BitVec 4)
  /-- ROM_READ at address n, p, s (42_pass_schedule_rom.md R160, 30_encoding.md R90). -/
  | romRead (n : BitVec 3) (p : BitVec 3) (s : BitVec 5)
  deriving DecidableEq, Repr

/-- The four sets of wires that carry a code of the opcode table. -/
inductive Port where
  /-- `cmd[15:0]` of the core (30_encoding.md R80) -/
  | cmd
  /-- `fsel[2:0]` of the mux (R87) -/
  | fsel
  /-- `dw[3:0]` of the tailor (R89) -/
  | dw
  /-- the ROM's 11-bit address (R90) -/
  | romAddr
  deriving DecidableEq, Repr

/-- A word on one of the four sets of wires. -/
inductive PortWord where
  | cmd (w : BitVec 16)
  | fsel (w : BitVec 3)
  | dw (w : BitVec 4)
  | romAddr (w : BitVec 11)
  deriving DecidableEq, Repr

end Sys2Proof
end

