-- ==== Sys2Proof/Machine/State.lean ====
section
/-! DEFINITION. The state of `haval_compression_core` as plain data: every register of 10_state.md R20, the ports'
inputs, and the wires of a combinational unit that is driven alone; the reasons a step can stop; the state after reset. -/

namespace Sys2Proof.Machine

/-- PHASE (10_state.md R26): 0 = UNCONFIGURED, 1 = CONFIGURED. -/
inductive Phase where
  | unconfigured
  | configured
  deriving DecidableEq, Repr

/-- FSM, the sequencer's state (10_state.md R29); the code 3 is never reached and has no constructor (log 12). -/
inductive Fsm where
  | idle
  | run
  | ff
  deriving DecidableEq, Repr

/-- The status codes of 60_exceptions.md R270; the codes 5, 6, 7 are never produced and have no constructor (log 12). -/
inductive Status where
  | ok
  | configError
  | notConfigured
  | illegalCmd
  | finalized
  deriving DecidableEq, Repr

/-- One thing the outside does to the machine's ports (log 4, log 6). -/
inductive Event where
  /-- One rising edge of `clk` with these values on the core's input ports (10_state.md R35). -/
  | edge (rst : Bool) (cmdValid : Bool) (cmd : BitVec 16) (blk : Vec32 Word)
  /-- `haval_boolean_function_mux` alone is driven with `fsel` and `a0..a6` (40_boolean_functions.md R110). -/
  | mux (fsel : BitVec 3) (a : Vec7 Word)
  /-- `haval_output_tailor` alone is driven with `dw` and `h[0..7]` (44_output_tailor.md R240). -/
  | tailor (dw : BitVec 4) (h : Vec8 Word)
  /-- `haval_pass_schedule_rom` alone is driven with an address (42_pass_schedule_rom.md R160). -/
  | rom (addr : BitVec 11)
  deriving DecidableEq, Repr

/-- The addressed outputs of the pass schedule ROM (42_pass_schedule_rom.md R160). -/
structure RomOut where
  fsel : BitVec 3
  phi : Vec7 (BitVec 3)
  widx : BitVec 5
  rc : Word
  deriving DecidableEq, Repr

/-- The whole state. The first fourteen fields are the registers of 10_state.md R20; the others are the model's own:
what stands on the ports and wires (log 4, 5, 6) and the count of free values drawn (log 3). -/
structure State where
  /-- H[0..7], the chaining state (R21). -/
  H : Vec8 Word
  /-- W[0..7], the working window (R23). -/
  W : Vec8 Word
  /-- M[0..31], the block buffer (R24). -/
  M : Vec32 Word
  /-- D[0..7], the digest register (R25). -/
  D : Vec8 Word
  /-- CFG_N, the pass count (R27). -/
  cfgN : BitVec 3
  /-- CFG_DW, the digest length in words (R27). -/
  cfgDw : BitVec 4
  /-- PHASE (R26). -/
  phase : Phase
  /-- FIN (R28). -/
  fin : Bool
  /-- FSM (R29). -/
  fsm : Fsm
  /-- P, the pass index (R30). -/
  P : BitVec 3
  /-- S, the step index (R30). -/
  S : BitVec 5
  /-- LAST_STATUS (R31). -/
  lastStatus : Status
  /-- ERR_STICKY (R32). -/
  errSticky : Bool
  /-- RSP_VALID (R33). -/
  rspValid : Bool
  /-- The words on the `blk` port at the edge being executed (R35; log 5). -/
  blkPort : Vec32 Word
  /-- What the outside drives next, the head first (log 4). -/
  inputs : List Event
  /-- `a0..a6` of the mux driven alone (log 6). -/
  muxIn : Vec7 Word
  /-- `f` of the mux driven alone (log 6). -/
  muxOut : Word
  /-- `h[0..7]` of the tailor driven alone (log 6). -/
  tailorIn : Vec8 Word
  /-- `d[0..7]` of the tailor driven alone (log 6). -/
  tailorOut : Vec8 Word
  /-- the outputs of the ROM driven alone (log 6). -/
  romOut : RomOut
  /-- how many times free values have been drawn (log 3). -/
  draws : Nat
  deriving DecidableEq, Repr

/-- The reasons a step stops with a fault: none. The hardware has no trap (60_exceptions.md R277) and no failure once a
command has started (43_compression_core.md R216); every error is a status code in a next state. -/
inductive Fault where
  deriving DecidableEq, Repr

/-- The reasons a step is refused. -/
inductive Refusal where
  /-- Raised by an arm of `exec` for an instruction that has no meaning yet; no arm does. Safe. -/
  | notModelled (mnemonic : String)
  deriving DecidableEq, Repr

/-- The value named for every data register that the spec gives no reset value (log 1). -/
def resetWords : Vec8 Word := ⟨0, 0, 0, 0, 0, 0, 0, 0⟩

/-- The machine right after reset. The control registers have the values of 70_reset_and_hazards.md R301. H, W, M, D,
CFG_N, CFG_DW, P and S have none there: DESIGN CHOICE 0 (log 1), unsafe. The last eight fields are the model's own
(log 3 to 6). -/
def State.reset : State where
  H := resetWords
  W := resetWords
  M := ⟨resetWords, resetWords, resetWords, resetWords⟩
  D := resetWords
  cfgN := 0
  cfgDw := 0
  phase := .unconfigured
  fin := false
  fsm := .idle
  P := 0
  S := 0
  lastStatus := .ok
  errSticky := false
  rspValid := false
  blkPort := ⟨resetWords, resetWords, resetWords, resetWords⟩
  inputs := []
  muxIn := ⟨0, 0, 0, 0, 0, 0, 0⟩
  muxOut := 0
  tailorIn := resetWords
  tailorOut := resetWords
  romOut := ⟨0, ⟨0, 0, 0, 0, 0, 0, 0⟩, 0, 0⟩
  draws := 0

end Sys2Proof.Machine
end

