-- ==== Sys2Proof/Machine/Flags.lean ====
section
/-! DEFINITION. The status bits: the codes of PHASE, FSM and LAST_STATUS, and the completion of a command, the one
operation that writes LAST_STATUS, ERR_STICKY and RSP_VALID = 1. There are no arithmetic flags (10_state.md R40). -/

namespace Sys2Proof.Machine

/-- The bit of PHASE (10_state.md R26). -/
def Phase.bit : Phase → Bool
  | .unconfigured => false
  | .configured => true

/-- The code of FSM (10_state.md R29). -/
def Fsm.code : Fsm → BitVec 2
  | .idle => 0
  | .run => 1
  | .ff => 2

/-- BUSY is `FSM != IDLE` (10_state.md R29). -/
def Fsm.busy : Fsm → Bool
  | .idle => false
  | .run => true
  | .ff => true

/-- The code of a status (60_exceptions.md R270). -/
def Status.code : Status → BitVec 3
  | .ok => 0
  | .configError => 1
  | .notConfigured => 2
  | .illegalCmd => 3
  | .finalized => 4

/-- Whether a status is an error: `st != OK` (43_compression_core.md R193). -/
def Status.isError : Status → Bool
  | .ok => false
  | .configError => true
  | .notConfigured => true
  | .illegalCmd => true
  | .finalized => true

/-- The completion edge of a command with status `st` (43_compression_core.md R193; 10_state.md R31, R32, R33). -/
def complete (st : Status) (s : State) : State :=
  { s with lastStatus := st, errSticky := s.errSticky || st.isError, rspValid := true }

/-- Every edge that completes no command: RSP_VALID <- 0 (43_compression_core.md R193). -/
def noResponse (s : State) : State := { s with rspValid := false }

end Sys2Proof.Machine
end

