-- ==== Sys2Proof/Machine/Vec.lean ====
section
/-! DEFINITION. Indexing into the fixed groups of Word.lean, building one from a function of the index, and mapping. -/

namespace Sys2Proof

/-- Entry `i`. -/
def Vec7.get {α : Type} (v : Vec7 α) (i : Fin 7) : α :=
  match i with
  | 0 => v.e0
  | 1 => v.e1
  | 2 => v.e2
  | 3 => v.e3
  | 4 => v.e4
  | 5 => v.e5
  | 6 => v.e6

/-- The group whose entry `i` is `f i`. -/
def Vec7.tabulate {α : Type} (f : Fin 7 → α) : Vec7 α := ⟨f 0, f 1, f 2, f 3, f 4, f 5, f 6⟩

/-- Entry `i`. -/
def Vec8.get {α : Type} (v : Vec8 α) (i : Fin 8) : α :=
  match i with
  | 0 => v.e0
  | 1 => v.e1
  | 2 => v.e2
  | 3 => v.e3
  | 4 => v.e4
  | 5 => v.e5
  | 6 => v.e6
  | 7 => v.e7

/-- The group whose entry `i` is `f i`. -/
def Vec8.tabulate {α : Type} (f : Fin 8 → α) : Vec8 α := ⟨f 0, f 1, f 2, f 3, f 4, f 5, f 6, f 7⟩

/-- The group with entry `i` replaced by `x`. -/
def Vec8.set {α : Type} (v : Vec8 α) (i : Fin 8) (x : α) : Vec8 α :=
  .tabulate fun j => if j = i then x else v.get j

/-- Entry `k`: entry `k mod 8` of row `k / 8`. -/
def Vec32.get {α : Type} (v : Vec32 α) (k : Fin 32) : α :=
  let j : Fin 8 := ⟨k.val % 8, Nat.mod_lt _ (by decide)⟩
  if k.val < 8 then v.q0.get j
  else if k.val < 16 then v.q1.get j
  else if k.val < 24 then v.q2.get j
  else v.q3.get j

/-- The group whose entry `k` is `f k`. -/
def Vec32.tabulate {α : Type} (f : Fin 32 → α) : Vec32 α where
  q0 := ⟨f 0, f 1, f 2, f 3, f 4, f 5, f 6, f 7⟩
  q1 := ⟨f 8, f 9, f 10, f 11, f 12, f 13, f 14, f 15⟩
  q2 := ⟨f 16, f 17, f 18, f 19, f 20, f 21, f 22, f 23⟩
  q3 := ⟨f 24, f 25, f 26, f 27, f 28, f 29, f 30, f 31⟩

end Sys2Proof
end

