-- ==== Sys2Proof/Machine/Ops.lean ====
section
/-! DEFINITION. The named operations: rotation, reading the pass's registers, drawing free values, and REJECTING a
command, which is what the hardware has in the place of taking an exception. There is no return from one
(60_exceptions.md R278): the next command is simply accepted. -/

namespace Sys2Proof.Machine

/-- `rotr(v, k)` for 0 <= k <= 31 (00_scope.md R11). -/
def rotr (v : Word) (k : Nat) : Word := if k = 0 then v else (v >>> k) ||| (v <<< (32 - k))

/-- `rotl(v, k) = rotr(v, (32 - k) mod 32)` (00_scope.md R11). -/
def rotl (v : Word) (k : Nat) : Word := rotr v ((32 - k) % 32)

/-- The open values of this moment (log 3). -/
def State.any (s : State) : AnyValue := Config.freeWord s.draws

/-- Counts one draw of free values (log 3). -/
def tick (s : State) : State := { s with draws := s.draws + 1 }

/-- An error ends the command: its status is written and nothing else changes, saves or redirects anything
(60_exceptions.md R277; 43_compression_core.md R194). What a failed INIT changes besides is in its own meaning. -/
def reject (st : Status) (s : State) : State := complete st s

/-- The reset edge (70_reset_and_hazards.md R300, R301, R303): the control registers take their reset values; every
register that R301 marks unspecified has a free value from then on, whatever ran before (log 2). No response is given. -/
def resetEdge (s : State) : State :=
  { s with
    phase := .unconfigured
    fin := false
    fsm := .idle
    lastStatus := .ok
    errSticky := false
    rspValid := false
    H := .tabulate fun i => s.any (.resetH i)
    W := .tabulate fun i => s.any (.resetW i)
    M := .tabulate fun k => s.any (.resetM k)
    D := .tabulate fun i => s.any (.resetD i)
    cfgN := (s.any .resetCfgN).setWidth 3
    cfgDw := (s.any .resetCfgDw).setWidth 4
    P := (s.any .resetP).setWidth 3
    S := (s.any .resetS).setWidth 5 }

/-- A draw by a unit that is driven alone is counted, so that the next draw is another one (log 3). -/
def afterDraw (s : State) : State := tick s

end Sys2Proof.Machine
end

