-- ==== Sys2Proof/Machine/Operands.lean ====
section
/-! DEFINITION. The operand forms: INIT's two fields, the block of COMPRESS, the registers a pass feeds to the boolean
function, and the digest length. -/

namespace Sys2Proof.Machine

/-- The legal pass counts: n in 3, 4, 5 (30_encoding.md R82). -/
def legalN (n : BitVec 3) : Bool := decide (3 ≤ n.toNat ∧ n.toNat ≤ 5)

/-- The legal digest lengths: dw in 4..8 (30_encoding.md R82). -/
def legalDw (dw : BitVec 4) : Bool := decide (4 ≤ dw.toNat ∧ dw.toNat ≤ 8)

/-- A valid ROM address: n in 3, 4, 5 and 1 <= p <= n (30_encoding.md R90). -/
def validRomAddr (n p : BitVec 3) : Bool := legalN n && decide (1 ≤ p.toNat ∧ p.toNat ≤ n.toNat)

/-- The block operand of COMPRESS: the words on the `blk` port at the acceptance edge (10_state.md R24, R35;
43_compression_core.md R192). -/
def blockOperand (s : State) : Vec32 Word := s.blkPort

/-- The register a selector names, `W[sel]` for sel in 0..6; the reserved selector 7 drives the slot with any value
(30_encoding.md R88; 93_implementation_defined.md U5). -/
def selected (any : AnyValue) (W : Vec8 Word) (k : Fin 7) (sel : BitVec 3) : Word :=
  if sel = 7#3 then any (.slot k) else W.get sel.toFin

/-- The permuted view `a_k = W[phi_sel[k]]` for k in 0..6 (41_step_transform.md R141). -/
def permutedView (any : AnyValue) (phi : Vec7 (BitVec 3)) (W : Vec8 Word) : Vec7 Word :=
  .tabulate fun k => selected any W k (phi.get k)

end Sys2Proof.Machine
end

