-- ==== Sys2Proof/Machine/OutputTailor.lean ====
section
/-! DEFINITION. `haval_output_tailor` (44_output_tailor.md): the five tailorings, the unit, and the meanings of the `dw`
rows, which drive the tailor alone: the data inputs are `tailorIn`, the outputs are latched in `tailorOut` (log 6). -/

namespace Sys2Proof.Machine

/-- dw = 8 (R241): a copy. -/
def tailor8 (h : Vec8 Word) : Vec8 Word := h

/-- dw = 7 (R242, R246). -/
def tailor7 (h : Vec8 Word) : Vec8 Word where
  e0 := h.e0 + ((h.e7 >>> 27) &&& 0x1F)
  e1 := h.e1 + ((h.e7 >>> 22) &&& 0x1F)
  e2 := h.e2 + ((h.e7 >>> 18) &&& 0x0F)
  e3 := h.e3 + ((h.e7 >>> 13) &&& 0x1F)
  e4 := h.e4 + ((h.e7 >>> 9) &&& 0x0F)
  e5 := h.e5 + ((h.e7 >>> 4) &&& 0x1F)
  e6 := h.e6 + (h.e7 &&& 0x0F)
  e7 := 0

/-- dw = 6 (R243, R246). -/
def tailor6 (h : Vec8 Word) : Vec8 Word where
  e0 := h.e0 + rotr ((h.e7 &&& 0x0000001F) ||| (h.e6 &&& 0xFC000000)) 26
  e1 := h.e1 + ((h.e7 &&& 0x000003E0) ||| (h.e6 &&& 0x0000001F))
  e2 := h.e2 + (((h.e7 &&& 0x0000FC00) ||| (h.e6 &&& 0x000003E0)) >>> 5)
  e3 := h.e3 + (((h.e7 &&& 0x001F0000) ||| (h.e6 &&& 0x0000FC00)) >>> 10)
  e4 := h.e4 + (((h.e7 &&& 0x03E00000) ||| (h.e6 &&& 0x001F0000)) >>> 16)
  e5 := h.e5 + (((h.e7 &&& 0xFC000000) ||| (h.e6 &&& 0x03E00000)) >>> 21)
  e6 := 0
  e7 := 0

/-- dw = 5 (R244, R246). -/
def tailor5 (h : Vec8 Word) : Vec8 Word where
  e0 := h.e0 + rotr ((h.e7 &&& 0x0000003F) ||| (h.e6 &&& 0xFE000000) ||| (h.e5 &&& 0x01F80000)) 19
  e1 := h.e1 + rotr ((h.e7 &&& 0x00000FC0) ||| (h.e6 &&& 0x0000003F) ||| (h.e5 &&& 0xFE000000)) 25
  e2 := h.e2 + ((h.e7 &&& 0x0007F000) ||| (h.e6 &&& 0x00000FC0) ||| (h.e5 &&& 0x0000003F))
  e3 := h.e3 + (((h.e7 &&& 0x01F80000) ||| (h.e6 &&& 0x0007F000) ||| (h.e5 &&& 0x00000FC0)) >>> 6)
  e4 := h.e4 + (((h.e7 &&& 0xFE000000) ||| (h.e6 &&& 0x01F80000) ||| (h.e5 &&& 0x0007F000)) >>> 12)
  e5 := 0
  e6 := 0
  e7 := 0

/-- dw = 4 (R245, R246). -/
def tailor4 (h : Vec8 Word) : Vec8 Word where
  e0 := h.e0 + rotr ((h.e7 &&& 0x000000FF) ||| (h.e6 &&& 0xFF000000) ||| (h.e5 &&& 0x00FF0000) |||
    (h.e4 &&& 0x0000FF00)) 8
  e1 := h.e1 + rotr ((h.e7 &&& 0x0000FF00) ||| (h.e6 &&& 0x000000FF) ||| (h.e5 &&& 0xFF000000) |||
    (h.e4 &&& 0x00FF0000)) 16
  e2 := h.e2 + rotr ((h.e7 &&& 0x00FF0000) ||| (h.e6 &&& 0x0000FF00) ||| (h.e5 &&& 0x000000FF) |||
    (h.e4 &&& 0xFF000000)) 24
  e3 := h.e3 + ((h.e7 &&& 0xFF000000) ||| (h.e6 &&& 0x00FF0000) ||| (h.e5 &&& 0x0000FF00) |||
    (h.e4 &&& 0x000000FF))
  e4 := 0
  e5 := 0
  e6 := 0
  e7 := 0

/-- The tailor's outputs `d[0..7]` (R240); for dw outside 4..8 any value (R247). -/
def tailor (any : AnyValue) (dw : BitVec 4) (h : Vec8 Word) : Vec8 Word :=
  if dw = 8#4 then tailor8 h
  else if dw = 7#4 then tailor7 h
  else if dw = 6#4 then tailor6 h
  else if dw = 5#4 then tailor5 h
  else if dw = 4#4 then tailor4 h
  else .tabulate fun i => any (.tailorOut i)

/-- TAILOR_DW8 on the tailor driven alone (R241). -/
def execTailorDw8 (s : State) : Host.Outcome State Fault Refusal := .next { s with tailorOut := tailor8 s.tailorIn }

/-- TAILOR_DW7 on the tailor driven alone (R242). -/
def execTailorDw7 (s : State) : Host.Outcome State Fault Refusal := .next { s with tailorOut := tailor7 s.tailorIn }

/-- TAILOR_DW6 on the tailor driven alone (R243). -/
def execTailorDw6 (s : State) : Host.Outcome State Fault Refusal := .next { s with tailorOut := tailor6 s.tailorIn }

/-- TAILOR_DW5 on the tailor driven alone (R244). -/
def execTailorDw5 (s : State) : Host.Outcome State Fault Refusal := .next { s with tailorOut := tailor5 s.tailorIn }

/-- TAILOR_DW4 on the tailor driven alone (R245). -/
def execTailorDw4 (s : State) : Host.Outcome State Fault Refusal := .next { s with tailorOut := tailor4 s.tailorIn }

/-- TAILOR_DW_OTHER on the tailor driven alone: the outputs are any value (R247), free values (log 3). -/
def execTailorDwOther (dw : BitVec 4) (s : State) : Host.Outcome State Fault Refusal :=
  .next (afterDraw { s with tailorOut := tailor s.any dw s.tailorIn })

end Sys2Proof.Machine
end

