-- ==== Sys2Proof/Machine/BooleanFunctions.lean ====
section
/-! DEFINITION. `haval_boolean_function_mux` (40_boolean_functions.md): the five functions, the mux, and the meanings of
the `fsel` rows, which drive the mux alone: the data inputs are `muxIn`, the output is latched in `muxOut` (log 6). -/

namespace Sys2Proof.Machine

/-- F1 (R112). -/
def funF1 (x : Vec7 Word) : Word :=
  (x.e1 &&& (x.e0 ^^^ x.e4)) ^^^ (x.e2 &&& x.e5) ^^^ (x.e3 &&& x.e6) ^^^ x.e0

/-- F2 (R113). -/
def funF2 (x : Vec7 Word) : Word :=
  (x.e2 &&& ((x.e1 &&& ~~~x.e3) ^^^ (x.e4 &&& x.e5) ^^^ x.e6 ^^^ x.e0)) ^^^ (x.e4 &&& (x.e1 ^^^ x.e5)) ^^^
    (x.e3 &&& x.e5) ^^^ x.e0

/-- F3 (R114). -/
def funF3 (x : Vec7 Word) : Word :=
  (x.e3 &&& ((x.e1 &&& x.e2) ^^^ x.e6 ^^^ x.e0)) ^^^ (x.e1 &&& x.e4) ^^^ (x.e2 &&& x.e5) ^^^ x.e0

/-- F4 (R115). -/
def funF4 (x : Vec7 Word) : Word :=
  (x.e3 &&& ((x.e1 &&& x.e2) ^^^ (x.e4 ||| x.e6) ^^^ x.e5)) ^^^
    (x.e4 &&& ((~~~x.e2 &&& x.e5) ^^^ x.e1 ^^^ x.e6 ^^^ x.e0)) ^^^ (x.e2 &&& x.e6) ^^^ x.e0

/-- F5 (R116). -/
def funF5 (x : Vec7 Word) : Word :=
  (x.e0 &&& ~~~((x.e1 &&& x.e2 &&& x.e3) ^^^ x.e5)) ^^^ (x.e1 &&& x.e4) ^^^ (x.e2 &&& x.e5) ^^^ (x.e3 &&& x.e6)

/-- The mux (R118): `f = F_fsel(a6, ..., a0)` for fsel in 1..5, any value for 0, 6 and 7. -/
def boolMux (any : AnyValue) (fsel : BitVec 3) (a : Vec7 Word) : Word :=
  if fsel = 1#3 then funF1 a
  else if fsel = 2#3 then funF2 a
  else if fsel = 3#3 then funF3 a
  else if fsel = 4#3 then funF4 a
  else if fsel = 5#3 then funF5 a
  else any .muxOut

/-- F1 on the mux driven alone (R112). -/
def execF1 (s : State) : Host.Outcome State Fault Refusal := .next { s with muxOut := funF1 s.muxIn }

/-- F2 on the mux driven alone (R113). -/
def execF2 (s : State) : Host.Outcome State Fault Refusal := .next { s with muxOut := funF2 s.muxIn }

/-- F3 on the mux driven alone (R114). -/
def execF3 (s : State) : Host.Outcome State Fault Refusal := .next { s with muxOut := funF3 s.muxIn }

/-- F4 on the mux driven alone (R115). -/
def execF4 (s : State) : Host.Outcome State Fault Refusal := .next { s with muxOut := funF4 s.muxIn }

/-- F5 on the mux driven alone (R116). -/
def execF5 (s : State) : Host.Outcome State Fault Refusal := .next { s with muxOut := funF5 s.muxIn }

/-- A reserved `fsel` on the mux driven alone: the output is any value (R118), a free value (log 3). -/
def muxReserved (fsel : BitVec 3) (s : State) : State :=
  afterDraw { s with muxOut := boolMux s.any fsel s.muxIn }

/-- FSEL_RESERVED, fsel = 0 (R118). -/
def execFselReserved (s : State) : Host.Outcome State Fault Refusal := .next (muxReserved 0#3 s)

/-- FSEL_RESERVED_6, fsel = 6 + lo (R118). -/
def execFselReserved6 (lo : BitVec 1) (s : State) : Host.Outcome State Fault Refusal :=
  .next (muxReserved (3#2 ++ lo) s)

end Sys2Proof.Machine
end

