-- ==== Sys2Proof/Machine/PassScheduleRom.lean ====
section
/-! DEFINITION. `haval_pass_schedule_rom` (42_pass_schedule_rom.md): the register permutations, the message-word orders,
the round constants, the IV, the addressed read, and the meaning of ROM_READ, which drives the ROM alone (log 6). The
tables' values are the spec's (which marks them as general knowledge, log 14). -/

namespace Sys2Proof.Machine

/-- IV[0..7] (R165), the ROM's output that does not depend on the address (R160). -/
def romIv : Vec8 Word :=
  ⟨0x243F6A88, 0x85A308D3, 0x13198A2E, 0x03707344,
    0xA4093822, 0x299F31D0, 0x082EFA98, 0xEC4E6C89⟩

/-- PHI(n, p), `phi_sel[0..6]` with slot a0 first (R162); at an invalid (n, p) any value (R167). -/
def phiRow (any : AnyValue) (n p : BitVec 3) : Vec7 (BitVec 3) :=
  match n.toNat, p.toNat with
  | 3, 1 => ⟨4, 2, 6, 5, 3, 0, 1⟩
  | 3, 2 => ⟨6, 3, 5, 0, 1, 2, 4⟩
  | 3, 3 => ⟨0, 5, 4, 3, 2, 1, 6⟩
  | 4, 1 => ⟨0, 3, 5, 4, 1, 6, 2⟩
  | 4, 2 => ⟨4, 6, 1, 0, 2, 5, 3⟩
  | 4, 3 => ⟨5, 2, 0, 6, 3, 4, 1⟩
  | 4, 4 => ⟨3, 1, 2, 5, 0, 4, 6⟩
  | 5, 1 => ⟨6, 2, 5, 0, 1, 4, 3⟩
  | 5, 2 => ⟨5, 4, 3, 0, 1, 2, 6⟩
  | 5, 3 => ⟨5, 1, 3, 4, 0, 6, 2⟩
  | 5, 4 => ⟨6, 4, 0, 2, 3, 5, 1⟩
  | 5, 5 => ⟨1, 3, 4, 6, 0, 5, 2⟩
  | _, _ => .tabulate fun k => (any (.romPhi k)).setWidth 3

/-- ORD(1, 0..31) (R163). -/
def ord1 : Vec32 (BitVec 5) :=
  ⟨⟨0, 1, 2, 3, 4, 5, 6, 7⟩,
   ⟨8, 9, 10, 11, 12, 13, 14, 15⟩,
   ⟨16, 17, 18, 19, 20, 21, 22, 23⟩,
   ⟨24, 25, 26, 27, 28, 29, 30, 31⟩⟩

/-- ORD(2, 0..31) (R163). -/
def ord2 : Vec32 (BitVec 5) :=
  ⟨⟨5, 14, 26, 18, 11, 28, 7, 16⟩,
   ⟨0, 23, 20, 22, 1, 10, 4, 8⟩,
   ⟨30, 3, 21, 9, 17, 24, 29, 6⟩,
   ⟨19, 12, 15, 13, 2, 25, 31, 27⟩⟩

/-- ORD(3, 0..31) (R163). -/
def ord3 : Vec32 (BitVec 5) :=
  ⟨⟨19, 9, 4, 20, 28, 17, 8, 22⟩,
   ⟨29, 14, 25, 12, 24, 30, 16, 26⟩,
   ⟨31, 15, 7, 3, 1, 0, 18, 27⟩,
   ⟨13, 6, 21, 10, 23, 11, 5, 2⟩⟩

/-- ORD(4, 0..31) (R163). -/
def ord4 : Vec32 (BitVec 5) :=
  ⟨⟨24, 4, 0, 14, 2, 7, 28, 23⟩,
   ⟨26, 6, 30, 20, 18, 25, 19, 3⟩,
   ⟨22, 11, 31, 21, 8, 27, 12, 9⟩,
   ⟨1, 29, 5, 15, 17, 10, 16, 13⟩⟩

/-- ORD(5, 0..31) (R163). -/
def ord5 : Vec32 (BitVec 5) :=
  ⟨⟨27, 3, 21, 26, 17, 11, 20, 29⟩,
   ⟨19, 0, 12, 7, 13, 8, 31, 10⟩,
   ⟨5, 9, 14, 30, 18, 6, 28, 24⟩,
   ⟨2, 23, 16, 22, 4, 1, 25, 15⟩⟩

/-- K(1, 0..31): "zero constants" (R164). -/
def k1 : Vec32 Word := .tabulate fun _ => 0

/-- K(2, 0..31) (R164). -/
def k2 : Vec32 Word :=
  ⟨⟨0x452821E6, 0x38D01377, 0xBE5466CF, 0x34E90C6C,
    0xC0AC29B7, 0xC97C50DD, 0x3F84D5B5, 0xB5470917⟩,
   ⟨0x9216D5D9, 0x8979FB1B, 0xD1310BA6, 0x98DFB5AC,
    0x2FFD72DB, 0xD01ADFB7, 0xB8E1AFED, 0x6A267E96⟩,
   ⟨0xBA7C9045, 0xF12C7F99, 0x24A19947, 0xB3916CF7,
    0x0801F2E2, 0x858EFC16, 0x636920D8, 0x71574E69⟩,
   ⟨0xA458FEA3, 0xF4933D7E, 0x0D95748F, 0x728EB658,
    0x718BCD58, 0x82154AEE, 0x7B54A41D, 0xC25A59B5⟩⟩

/-- K(3, 0..31) (R164). -/
def k3 : Vec32 Word :=
  ⟨⟨0x9C30D539, 0x2AF26013, 0xC5D1B023, 0x286085F0,
    0xCA417918, 0xB8DB38EF, 0x8E79DCB0, 0x603A180E⟩,
   ⟨0x6C9E0E8B, 0xB01E8A3E, 0xD71577C1, 0xBD314B27,
    0x78AF2FDA, 0x55605C60, 0xE65525F3, 0xAA55AB94⟩,
   ⟨0x57489862, 0x63E81440, 0x55CA396A, 0x2AAB10B6,
    0xB4CC5C34, 0x1141E8CE, 0xA15486AF, 0x7C72E993⟩,
   ⟨0xB3EE1411, 0x636FBC2A, 0x2BA9C55D, 0x741831F6,
    0xCE5C3E16, 0x9B87931E, 0xAFD6BA33, 0x6C24CF5C⟩⟩

/-- K(4, 0..31) (R164). -/
def k4 : Vec32 Word :=
  ⟨⟨0x7A325381, 0x28958677, 0x3B8F4898, 0x6B4BB9AF,
    0xC4BFE81B, 0x66282193, 0x61D809CC, 0xFB21A991⟩,
   ⟨0x487CAC60, 0x5DEC8032, 0xEF845D5D, 0xE98575B1,
    0xDC262302, 0xEB651B88, 0x23893E81, 0xD396ACC5⟩,
   ⟨0x0F6D6FF3, 0x83F44239, 0x2E0B4482, 0xA4842004,
    0x69C8F04A, 0x9E1F9B5E, 0x21C66842, 0xF6E96C9A⟩,
   ⟨0x670C9C61, 0xABD388F0, 0x6A51A0D2, 0xD8542F68,
    0x960FA728, 0xAB5133A3, 0x6EEF0B6C, 0x137A3BE4⟩⟩

/-- K(5, 0..31) (R164). -/
def k5 : Vec32 Word :=
  ⟨⟨0xBA3BF050, 0x7EFB2A98, 0xA1F1651D, 0x39AF0176,
    0x66CA593E, 0x82430E88, 0x8CEE8619, 0x456F9FB4⟩,
   ⟨0x7D84A5C3, 0x3B8B5EBE, 0xE06F75D8, 0x85C12073,
    0x401A449F, 0x56C16AA6, 0x4ED3AA62, 0x363F7706⟩,
   ⟨0x1BFEDF72, 0x429B023D, 0x37D0D724, 0xD00A1248,
    0xDB0FEAD3, 0x49F1C09B, 0x075372C9, 0x80991B7B⟩,
   ⟨0x25D479D8, 0xF6E8DEF7, 0xE3FE501A, 0xB6794C3B,
    0x976CE0BD, 0x04C006BA, 0xC1A94FB6, 0x409F60C4⟩⟩

/-- ORD(p, s) (R163), for p in 1..5. -/
def ordAt (any : AnyValue) (p : BitVec 3) (s : BitVec 5) : BitVec 5 :=
  match p.toNat with
  | 1 => ord1.get s.toFin
  | 2 => ord2.get s.toFin
  | 3 => ord3.get s.toFin
  | 4 => ord4.get s.toFin
  | 5 => ord5.get s.toFin
  | _ => (any .romWidx).setWidth 5

/-- K(p, s) (R164), for p in 1..5. -/
def kAt (any : AnyValue) (p : BitVec 3) (s : BitVec 5) : Word :=
  match p.toNat with
  | 1 => k1.get s.toFin
  | 2 => k2.get s.toFin
  | 3 => k3.get s.toFin
  | 4 => k4.get s.toFin
  | 5 => k5.get s.toFin
  | _ => any .romRc

/-- ROM(n, p, s) (R160, R161): at a valid address fsel = p, phi_sel = PHI(n, p), widx = ORD(p, s), rc = K(p, s); at an
invalid one every output is any value (R167; log 9). -/
def romRead (any : AnyValue) (n p : BitVec 3) (s : BitVec 5) : RomOut :=
  if validRomAddr n p then
    { fsel := p, phi := phiRow any n p, widx := ordAt any p s, rc := kAt any p s }
  else
    { fsel := (any .romFsel).setWidth 3
      phi := .tabulate fun k => (any (.romPhi k)).setWidth 3
      widx := (any .romWidx).setWidth 5
      rc := any .romRc }

/-- ROM_READ on the ROM driven alone (R160; 30_encoding.md R90). A read at an invalid address takes free values, which
are counted as a draw (R167; log 3). -/
def execRomRead (n p : BitVec 3) (k : BitVec 5) (s : State) : Host.Outcome State Fault Refusal :=
  let t := { s with romOut := romRead s.any n p k }
  .next (if validRomAddr n p then t else afterDraw t)

end Sys2Proof.Machine
end

