-- ==== Sys2Proof/Machine/StepTransform.lean ====
section
/-! DEFINITION. The step transform (41_step_transform.md): the new word, the window shift, and the equivalent index form
of R145. `any` supplies the open values, none of which is used at a valid (n, p). -/

namespace Sys2Proof.Machine

/-- `new = rotr(t, 7) + rotr(W[7], 11) + w + c` (R143), for the ROM's outputs `r` at this step (R140, R142). -/
def newWord (any : AnyValue) (r : RomOut) (W : Vec8 Word) (M : Vec32 Word) : Word :=
  let t := boolMux any r.fsel (permutedView any r.phi W)
  rotr t 7 + rotr W.e7 11 + M.get r.widx.toFin + r.rc

/-- `W[0] <- x` and `W[j] <- W[j-1]` for j in 1..7 (R144). -/
def shiftIn (x : Word) (W : Vec8 Word) : Vec8 Word := ⟨x, W.e0, W.e1, W.e2, W.e3, W.e4, W.e5, W.e6⟩

/-- The step at (n, p, s): the window after it (R140 to R144). -/
def stepWindow (any : AnyValue) (n p : BitVec 3) (s : BitVec 5) (W : Vec8 Word) (M : Vec32 Word) : Vec8 Word :=
  shiftIn (newWord any (romRead any n p s) W M) W

/-- The window after `g` steps of a COMPRESS with pass count n: global step g is step `g mod 32` of pass
`g / 32 + 1` (70_reset_and_hazards.md R311). -/
def windowAfter (any : AnyValue) (n : BitVec 3) (M : Vec32 Word) (W : Vec8 Word) : Nat → Vec8 Word
  | 0 => W
  | g + 1 =>
    stepWindow any n (BitVec.ofNat 3 (g / 32 + 1)) (BitVec.ofNat 5 (g % 32)) (windowAfter any n M W g) M

/-- The window that eight unmoved registers T stand for at global step g: `W[j] = T[(j - g) mod 8]` (R145). -/
def indexView (T : Vec8 Word) (g : Nat) : Vec8 Word :=
  .tabulate fun j => T.get ⟨(j.val + 7 * g) % 8, Nat.mod_lt _ (by decide)⟩

/-- The index form of the step (R145): only `T[(7 - g) mod 8]` is written. -/
def indexStep (any : AnyValue) (n : BitVec 3) (M : Vec32 Word) (T : Vec8 Word) (g : Nat) : Vec8 Word :=
  T.set ⟨(7 + 7 * g) % 8, Nat.mod_lt _ (by decide)⟩
    (newWord any (romRead any n (BitVec.ofNat 3 (g / 32 + 1)) (BitVec.ofNat 5 (g % 32))) (indexView T g) M)

/-- The registers T after `g` steps in the index form (R145). -/
def indexAfter (any : AnyValue) (n : BitVec 3) (M : Vec32 Word) (T : Vec8 Word) : Nat → Vec8 Word
  | 0 => T
  | g + 1 => indexStep any n M (indexAfter any n M T g) g

end Sys2Proof.Machine
end

