-- ==== Sys2Proof/Machine/CompressionCore.lean ====
section
/-! DEFINITION. `haval_compression_core` (43_compression_core.md): what each accepted command does at its acceptance
edge, the step edge, the feed-forward edge, the idle edge, and COMPRESS as one transaction. A meaning here is the effect
of a command that IS accepted; whether one is accepted at an edge is the sequencer's (Machine/Sequencer.lean, log 10). -/

namespace Sys2Proof.Machine

/-- NOP (R200). -/
def execNop (s : State) : Host.Outcome State Fault Refusal := .next (complete .ok s)

/-- INIT (R201), and the ConfigurationError of R202. -/
def execInit (dw : BitVec 4) (n : BitVec 3) (s : State) : Host.Outcome State Fault Refusal :=
  if legalDw dw && legalN n then
    .next (complete .ok
      { s with H := romIv, cfgN := n, cfgDw := dw, phase := .configured, fin := false })
  else
    .next (reject .configError { s with phase := .unconfigured, fin := false })

/-- The acceptance edge of a COMPRESS that starts (R203): the block is sampled, the window is seeded from H, and the
sequencer goes to RUN at (1, 0). No command completes at this edge (R193). -/
def startCompress (s : State) : State :=
  noResponse { s with M := blockOperand s, W := s.H, P := 1#3, S := 0#5, fsm := .run }

/-- COMPRESS at its acceptance edge (R203, R204, R205). Its steps and its feed-forward are the edges that follow. -/
def execCompress (s : State) : Host.Outcome State Fault Refusal :=
  match s.phase with
  | .unconfigured => .next (reject .notConfigured s)
  | .configured => if s.fin then .next (reject .finalized s) else .next (startCompress s)

/-- What FINALIZE writes to D: the tailor's words below CFG_DW and 0 from there on (R210; 10_state.md R25). -/
def latchedDigest (any : AnyValue) (dw : BitVec 4) (h : Vec8 Word) : Vec8 Word :=
  .tabulate fun i => if i.val < dw.toNat then (tailor any dw h).get i else 0

/-- FINALIZE (R210, R211, R212). -/
def execFinalize (s : State) : Host.Outcome State Fault Refusal :=
  match s.phase with
  | .unconfigured => .next (reject .notConfigured s)
  | .configured => .next (complete .ok { s with D := latchedDigest s.any s.cfgDw s.H, fin := true })

/-- RESERVED_OPC_4_7 (R213; 30_encoding.md R84): illegal whatever the other bits are. -/
def execReservedOpc4to7 (_rest : BitVec 12) (_lo : BitVec 2) (s : State) : Host.Outcome State Fault Refusal :=
  .next (reject .illegalCmd s)

/-- RESERVED_OPC_8_F (R213; 30_encoding.md R84): illegal whatever the other bits are. -/
def execReservedOpc8toF (_rest : BitVec 12) (_lo : BitVec 3) (s : State) : Host.Outcome State Fault Refusal :=
  .next (reject .illegalCmd s)

/-- ILLEGAL_RESERVED_BITS (R213; 30_encoding.md R83). -/
def execIllegalReservedBits (_rest : BitVec 12) (_opc : BitVec 2) (s : State) : Host.Outcome State Fault Refusal :=
  .next (reject .illegalCmd s)

/-- How (P, S) and FSM advance at a step edge (R206; 10_state.md R30). -/
def advance (s : State) : State :=
  if s.S.toNat < 31 then { s with S := s.S + 1#5 }
  else if s.P.toNat < s.cfgN.toNat then { s with S := 0#5, P := s.P + 1#3 }
  else { s with fsm := .ff }

/-- The step edge (R206): FSM = RUN. Every right-hand side reads the state before the edge (70 R325). -/
def stepEdge (s : State) : State :=
  noResponse { advance s with W := stepWindow s.any s.cfgN s.P s.S s.W s.M }

/-- Word-wise addition modulo 2^32 (R208). -/
def addWords (a b : Vec8 Word) : Vec8 Word := .tabulate fun i => a.get i + b.get i

/-- The feed-forward edge (R208): FSM = FF. It is the completion edge of the COMPRESS. -/
def feedForwardEdge (s : State) : State :=
  complete .ok { s with H := addWords s.H s.W, fsm := .idle }

/-- An edge at which the core is idle and accepts no command: only RSP_VALID falls (R193). -/
def quietEdge (s : State) : State := noResponse s

/-- COMPRESS as one transaction, pass by pass and step by step (R209). -/
def compressTransaction (any : AnyValue) (n : BitVec 3) (H : Vec8 Word) (M : Vec32 Word) : Vec8 Word :=
  let onePass (W : Vec8 Word) (p : Nat) : Vec8 Word :=
    (List.range 32).foldl (fun W s => stepWindow any n (BitVec.ofNat 3 (p + 1)) (BitVec.ofNat 5 s) W M) W
  addWords H ((List.range n.toNat).foldl onePass H)

end Sys2Proof.Machine
end

