-- ==== Sys2Proof/Machine/Dispatch.lean ====
section
/-! DEFINITION. The dispatch: one arm per constructor of `Instr`. -/

namespace Sys2Proof.Machine

-- Every row of the opcode table, in the table's order.
def exec (i : Instr) (s : State) : Host.Outcome State Fault Refusal :=
  match i with
  | .nop => Sys2Proof.Machine.execNop s
  | .init dw n => Sys2Proof.Machine.execInit dw n s
  | .compress => Sys2Proof.Machine.execCompress s
  | .finalize => Sys2Proof.Machine.execFinalize s
  | .reservedOpc4to7 rest lo => Sys2Proof.Machine.execReservedOpc4to7 rest lo s
  | .reservedOpc8toF rest lo => Sys2Proof.Machine.execReservedOpc8toF rest lo s
  | .illegalReservedBits rest opc => Sys2Proof.Machine.execIllegalReservedBits rest opc s
  | .f1 => Sys2Proof.Machine.execF1 s
  | .f2 => Sys2Proof.Machine.execF2 s
  | .f3 => Sys2Proof.Machine.execF3 s
  | .f4 => Sys2Proof.Machine.execF4 s
  | .f5 => Sys2Proof.Machine.execF5 s
  | .fselReserved => Sys2Proof.Machine.execFselReserved s
  | .fselReserved6 lo => Sys2Proof.Machine.execFselReserved6 lo s
  | .tailorDw8 => Sys2Proof.Machine.execTailorDw8 s
  | .tailorDw7 => Sys2Proof.Machine.execTailorDw7 s
  | .tailorDw6 => Sys2Proof.Machine.execTailorDw6 s
  | .tailorDw5 => Sys2Proof.Machine.execTailorDw5 s
  | .tailorDw4 => Sys2Proof.Machine.execTailorDw4 s
  | .tailorDwOther dw => Sys2Proof.Machine.execTailorDwOther dw s
  | .romRead n p k => Sys2Proof.Machine.execRomRead n p k s

end Sys2Proof.Machine
end

