-- ==== Sys2Proof/WellFormed.lean ====
section
/-! DEFINITION. Which terms of `Instr` stand for a word. Only the two catch-all rows have terms that do not: their words
must be ones that no earlier row of the table takes. -/

namespace Sys2Proof

/-- 30_encoding.md R83: an ILLEGAL_RESERVED_BITS term has a reserved bit set, which for INIT (opc 1) is one of cmd[15:11]
= rest[11:7] and for the other opcodes any of cmd[15:4]. 44_output_tailor.md R247: a TAILOR_DW_OTHER term has dw outside
4..8. Every other term is well formed: an INIT with illegal fields is a command word too (30_encoding.md R82). -/
def Instr.wf : Instr → Bool
  | .nop => true
  | .init _ _ => true
  | .compress => true
  | .finalize => true
  | .reservedOpc4to7 _ _ => true
  | .reservedOpc8toF _ _ => true
  | .illegalReservedBits rest opc =>
      if opc = 1#2 then decide (rest.extractLsb' 7 5 ≠ 0#5) else decide (rest ≠ 0#12)
  | .f1 => true
  | .f2 => true
  | .f3 => true
  | .f4 => true
  | .f5 => true
  | .fselReserved => true
  | .fselReserved6 _ => true
  | .tailorDw8 => true
  | .tailorDw7 => true
  | .tailorDw6 => true
  | .tailorDw5 => true
  | .tailorDw4 => true
  | .tailorDwOther dw => decide (dw.toNat < 4 ∨ 8 < dw.toNat)
  | .romRead _ _ _ => true

end Sys2Proof
end

