-- ==== Sys2Proof/Decode.lean ====
section
/-! DEFINITION. The decoder, written from 30_encoding.md R80 to R90, and after it the encoder. Decoding is total: every
word on every set of wires has an instruction (R85). What can be refused is a number that is no word of any wires. -/

namespace Sys2Proof

/-- The command decoder, 30_encoding.md R85: OPC = cmd[3:0], DW = cmd[7:4], NP = cmd[10:8], RSV = cmd[15:11]. -/
def decodeCommand (cmd : BitVec 16) : Instr :=
  let opc := cmd.extractLsb' 0 4
  let rest := cmd.extractLsb' 4 12
  if opc = 0x1#4 then
    if cmd.extractLsb' 11 5 ≠ 0#5 then .illegalReservedBits rest 1#2
    else .init (cmd.extractLsb' 4 4) (cmd.extractLsb' 8 3)
  else if opc = 0x0#4 then
    if rest ≠ 0#12 then .illegalReservedBits rest 0#2 else .nop
  else if opc = 0x2#4 then
    if rest ≠ 0#12 then .illegalReservedBits rest 2#2 else .compress
  else if opc = 0x3#4 then
    if rest ≠ 0#12 then .illegalReservedBits rest 3#2 else .finalize
  else if cmd.extractLsb' 3 1 = 1#1 then .reservedOpc8toF rest (cmd.extractLsb' 0 3)
  else .reservedOpc4to7 rest (cmd.extractLsb' 0 2)

/-- The function select, 30_encoding.md R87. -/
def decodeFsel (fsel : BitVec 3) : Instr :=
  if fsel = 1#3 then .f1
  else if fsel = 2#3 then .f2
  else if fsel = 3#3 then .f3
  else if fsel = 4#3 then .f4
  else if fsel = 5#3 then .f5
  else if fsel = 0#3 then .fselReserved
  else .fselReserved6 (fsel.extractLsb' 0 1)

/-- The digest length on the tailor's wires, 30_encoding.md R89, 44_output_tailor.md R241 to R247. -/
def decodeDw (dw : BitVec 4) : Instr :=
  if dw = 8#4 then .tailorDw8
  else if dw = 7#4 then .tailorDw7
  else if dw = 6#4 then .tailorDw6
  else if dw = 5#4 then .tailorDw5
  else if dw = 4#4 then .tailorDw4
  else .tailorDwOther dw

/-- The ROM address, 30_encoding.md R90: n = addr[10:8], p = addr[7:5], s = addr[4:0]. -/
def decodeRomAddr (addr : BitVec 11) : Instr :=
  .romRead (addr.extractLsb' 8 3) (addr.extractLsb' 5 3) (addr.extractLsb' 0 5)

/-- The decoder of all four sets of wires. -/
def decode : PortWord → Instr
  | .cmd w => decodeCommand w
  | .fsel w => decodeFsel w
  | .dw w => decodeDw w
  | .romAddr w => decodeRomAddr w

/-- How many bits a set of wires has. -/
def Port.width : Port → Nat
  | .cmd => 16
  | .fsel => 3
  | .dw => 4
  | .romAddr => 11

/-- Why a number is no word of the hardware. -/
inductive DecodeError where
  /-- a bit is set that the wires of `port` do not have -/
  | tooWide (port : Port)
  /-- no set of wires has `nbits` bits -/
  | noSuchWidth (nbits : Nat)
  deriving DecidableEq, Repr

/-- A number put on a set of wires. -/
def portWord (port : Port) (w : Nat) : Except DecodeError PortWord :=
  if w < 2 ^ port.width then
    .ok (match port with
      | .cmd => .cmd (BitVec.ofNat 16 w)
      | .fsel => .fsel (BitVec.ofNat 3 w)
      | .dw => .dw (BitVec.ofNat 4 w)
      | .romAddr => .romAddr (BitVec.ofNat 11 w))
  else .error (.tooWide port)

/-- DESIGN CHOICE (log 7), safe. Which wires a word of the opcode table stands on, told from its width and value alone.
A width that only one set of wires has names it. Sixteen bits are the command port, whose decoding is total. In a whole
byte, the 3-bit `fsel` codes and the 4-bit `dw` codes overlap, and nothing in the word tells them apart: the values 0 to 6
are taken as `fsel`, the others as `dw`. -/
def tablePort (nbits w : Nat) : Except DecodeError Port :=
  if nbits = 16 then .ok .cmd
  else if nbits = 8 then .ok (if w < 7 then .fsel else .dw)
  else if nbits = 3 then .ok .fsel
  else if nbits = 4 then .ok .dw
  else if nbits = 11 then .ok .romAddr
  else .error (.noSuchWidth nbits)

/-- The word on the wires for a word of the opcode table (log 7). -/
def tableWord (nbits w : Nat) : Except DecodeError PortWord :=
  match tablePort nbits w with
  | .ok port => portWord port w
  | .error e => .error e

/-- The instruction the decoder reads from a word of the opcode table; none where the number is no word (log 7). -/
def decodeTableWord (nbits w : Nat) : Option Instr :=
  match tableWord nbits w with
  | .ok pw => some (decode pw)
  | .error _ => none

/-- The encoder: the word of a well-formed instruction and the wires it stands on, from 30_encoding.md R80, R81, R87,
R89 and R90. -/
def encode : Instr → PortWord
  | .nop => .cmd 0x0000#16
  | .init dw n => .cmd (0#5 ++ n ++ dw ++ 1#4)
  | .compress => .cmd 0x0002#16
  | .finalize => .cmd 0x0003#16
  | .reservedOpc4to7 rest lo => .cmd (rest ++ 1#2 ++ lo)
  | .reservedOpc8toF rest lo => .cmd (rest ++ 1#1 ++ lo)
  | .illegalReservedBits rest opc => .cmd (rest ++ 0#2 ++ opc)
  | .f1 => .fsel 1#3
  | .f2 => .fsel 2#3
  | .f3 => .fsel 3#3
  | .f4 => .fsel 4#3
  | .f5 => .fsel 5#3
  | .fselReserved => .fsel 0#3
  | .fselReserved6 lo => .fsel (3#2 ++ lo)
  | .tailorDw8 => .dw 8#4
  | .tailorDw7 => .dw 7#4
  | .tailorDw6 => .dw 6#4
  | .tailorDw5 => .dw 5#4
  | .tailorDw4 => .dw 4#4
  | .tailorDwOther dw => .dw dw
  | .romRead n p s => .romAddr (n ++ p ++ s)

end Sys2Proof
end

