-- ==== Sys2Proof/Machine/Ports.lean ====
section
/-! DEFINITION. The output ports of the core (10_state.md R34, R36), each a function of the state in the current cycle;
only `cmd_ready` depends on an input, `rst`. Where the spec says "any value", the port shows a free value (log 8). -/

namespace Sys2Proof.Machine

/-- `cmd_ready = FSM = IDLE and rst = 0` (R36; 43_compression_core.md R191). -/
def cmdReady (rst : Bool) (s : State) : Bool := decide (s.fsm = .idle) && !rst

/-- `rsp_valid = RSP_VALID` (R36). -/
def rspValidPort (s : State) : Bool := s.rspValid

/-- `rsp_status = LAST_STATUS` (R36). -/
def rspStatusPort (s : State) : BitVec 3 := s.lastStatus.code

/-- `state_out[0..7]`: H; any value when PHASE = 0 (R36). -/
def stateOutPort (s : State) : Vec8 Word :=
  match s.phase with
  | .configured => s.H
  | .unconfigured => .tabulate fun i => s.any (.portStateOut i)

/-- `digest_valid = FIN` (R36). -/
def digestValidPort (s : State) : Bool := s.fin

/-- `digest_len = 4 * CFG_DW` when FIN = 1, else 0 (R36), six bits. -/
def digestLenPort (s : State) : BitVec 6 := if s.fin then 4#6 * s.cfgDw.setWidth 6 else 0#6

/-- `digest_out[0..7]`: D; any value when FIN = 0 (R36). -/
def digestOutPort (s : State) : Vec8 Word :=
  if s.fin then s.D else .tabulate fun i => s.any (.portDigestOut i)

/-- Byte `k` of a word: bits 8k+7 to 8k (20_memory.md R62). -/
def byteOf (v : Word) (k : Fin 4) : Byte := v.extractLsb' (8 * k.val) 8

/-- The word whose byte k is `b_k`, little-endian (20_memory.md R61): what the host forms a block word by. -/
def wordOfBytes (b0 b1 b2 b3 : Byte) : Word :=
  b0.setWidth 32 ||| (b1.setWidth 32 <<< 8) ||| (b2.setWidth 32 <<< 16) ||| (b3.setWidth 32 <<< 24)

/-- `digest_bytes[j]`: byte `j mod 4` of `D[j / 4]` (20_memory.md R62); any value when FIN = 0 (R36). -/
def digestBytePort (s : State) (j : Fin 32) : Byte :=
  if s.fin then byteOf (s.D.get ⟨j.val / 4, by omega⟩) ⟨j.val % 4, by omega⟩
  else (s.any (.portDigestByte j)).setWidth 8

/-- CFG_DW as `status_out` shows it: any value when PHASE = 0 (R34). -/
def shownCfgDw (s : State) : BitVec 4 :=
  match s.phase with
  | .configured => s.cfgDw
  | .unconfigured => (s.any .portCfgDw).setWidth 4

/-- CFG_N as `status_out` shows it: any value when PHASE = 0 (R34). -/
def shownCfgN (s : State) : BitVec 3 :=
  match s.phase with
  | .configured => s.cfgN
  | .unconfigured => (s.any .portCfgN).setWidth 3

/-- `status_out[15:0]` (R34), bit 15 first. -/
def statusOutPort (s : State) : BitVec 16 :=
  0#1 ++ shownCfgN s ++ shownCfgDw s ++ 0#1 ++ s.lastStatus.code ++ BitVec.ofBool s.errSticky ++
    BitVec.ofBool s.fin ++ BitVec.ofBool s.fsm.busy ++ BitVec.ofBool s.phase.bit

/-- `iv[0..7]` of the ROM, whatever the address is (42_pass_schedule_rom.md R160). -/
def romIvPort : Vec8 Word := romIv

end Sys2Proof.Machine
end

