-- ==== Sys2Proof/Machine/Sequencer.lean ====
section
/-! DEFINITION. What happens next: the ports are sampled (the head of `inputs`), and the sequencer chooses the one action
of this edge (43_compression_core.md R190 to R192; 70_reset_and_hazards.md R300, R320). Also here: how a word is presented
so that the very next step runs it (log 11), and the assembly lines of 30_encoding.md R91. -/

namespace Sys2Proof.Machine

/-- The one action of a step. -/
inductive Action where
  /-- `rst = 1` at the edge (70 R300). -/
  | reset
  /-- FSM = RUN: a step edge (43 R206). -/
  | runStep
  /-- FSM = FF: the feed-forward edge (43 R208). -/
  | feedForward
  /-- a command is accepted, or a unit alone is driven: the decoded instruction is executed (43 R192). -/
  | accept (i : Instr)
  /-- the core is idle and no command is presented. -/
  | quiet
  deriving DecidableEq, Repr

/-- The action of a clock edge (43 R190, R192). Reset has priority over everything (70 R300); while FSM is not IDLE,
`cmd_valid` is ignored (70 R320). -/
def edgeAction (rst cmdValid : Bool) (cmd : BitVec 16) (s : State) : Action :=
  if rst then .reset
  else
    match s.fsm with
    | .run => .runStep
    | .ff => .feedForward
    | .idle => if cmdValid && cmdReady rst s then .accept (decode (.cmd cmd)) else .quiet

/-- The action of this step, and the state with the ports sampled: the head of `inputs` is consumed and its words stand
on the ports. With no event left the clock runs on with `rst = 0` and `cmd_valid = 0` (log 4). Each step counts one draw
of free values (log 3). -/
def nextAction (s : State) : Action × State :=
  match s.inputs with
  | [] => (edgeAction false false 0#16 s, tick s)
  | .edge rst cmdValid cmd blk :: rest =>
      (edgeAction rst cmdValid cmd s, tick { s with inputs := rest, blkPort := blk })
  | .mux fsel a :: rest => (.accept (decode (.fsel fsel)), tick { s with inputs := rest, muxIn := a })
  | .tailor dw h :: rest => (.accept (decode (.dw dw)), tick { s with inputs := rest, tailorIn := h })
  | .rom addr :: rest => (.accept (decode (.romAddr addr)), tick { s with inputs := rest })

/-- The block that stands on `blk` at the next edge. -/
def nextBlk (s : State) : Vec32 Word :=
  match s.inputs with
  | .edge _ _ _ blk :: _ => blk
  | .mux _ _ :: _ => s.blkPort
  | .tailor _ _ :: _ => s.blkPort
  | .rom _ :: _ => s.blkPort
  | [] => s.blkPort

/-- Presents a word so that the very next step runs it, in the place of the next event (log 11). A command needs
`rst = 0`, `cmd_valid = 1` and `cmd_ready = 1`, so the sequencer is put to IDLE; a unit's code needs its wires only. The
block and the data inputs that already stand on the ports stay. -/
def present (pw : PortWord) (s : State) : State :=
  match pw with
  | .cmd w => { s with fsm := .idle, inputs := .edge false true w (nextBlk s) :: s.inputs.tail }
  | .fsel w => { s with inputs := .mux w s.muxIn :: s.inputs.tail }
  | .dw w => { s with inputs := .tailor w s.tailorIn :: s.inputs.tail }
  | .romAddr w => { s with inputs := .rom w :: s.inputs.tail }

/-- A word of the opcode table presented for the next step; a number that is no word presents nothing (log 7, log 11). -/
def presentTableWord (s : State) (nbits w : Nat) : State :=
  match tableWord nbits w with
  | .ok pw => present pw s
  | .error _ => s

/-- A line of the spec's assembly (30_encoding.md R91, R92), as data, not as text (log 15). -/
inductive AsmLine where
  /-- `NOP` -/
  | nop
  /-- `INIT <dw>, <n>` -/
  | init (dw n : Nat)
  /-- `COMPRESS <block>` -/
  | compress (block : Vec32 Word)
  /-- `FINALIZE` -/
  | finalize
  /-- `.word 0xHHHH` -/
  | word (w : BitVec 16)
  /-- `.reset` -/
  | reset
  deriving DecidableEq, Repr

/-- The one edge a line stands for: its command word (30_encoding.md R91, R86) with the block on `blk`, or one reset
cycle. `blk` is ignored for every other command (70 R321); it stays as `blk0`. -/
def AsmLine.event (blk0 : Vec32 Word) : AsmLine → Event
  | .nop => .edge false true 0x0000#16 blk0
  | .init dw n =>
      .edge false true
        (0x0001#16 ||| ((BitVec.ofNat 16 dw &&& 0xF#16) <<< 4) ||| ((BitVec.ofNat 16 n &&& 0x7#16) <<< 8)) blk0
  | .compress block => .edge false true 0x0002#16 block
  | .finalize => .edge false true 0x0003#16 blk0
  | .word w => .edge false true w blk0
  | .reset => .edge true false 0x0000#16 blk0

end Sys2Proof.Machine
end

