-- ==== Sys2Proof/Machine/Step.lean ====
section
/-! DEFINITION. One step: one rising edge of `clk` (43_compression_core.md R190), or one drive of a unit alone. -/

namespace Sys2Proof.Machine

/-- Samples the ports and does the one action of this edge. -/
def step (s : State) : Host.Outcome State Fault Refusal :=
  match nextAction s with
  | (.reset, t) => .next (resetEdge t)
  | (.runStep, t) => .next (stepEdge t)
  | (.feedForward, t) => .next (feedForwardEdge t)
  | (.accept i, t) => exec i t
  | (.quiet, t) => .next (quietEdge t)

/-- The state with a word of the opcode table presented, so that the very next step runs it (log 11). -/
def State.withFetchWord (s : State) (nbits w : Nat) : State := presentTableWord s nbits w

end Sys2Proof.Machine
end

