-- ==== Sys2Proof/Safety.lean ====
section
/-! DEFINITION. What counts as a safe run, in the terms the statements use: what the outside does at the next steps, and
the invariants of the machine. No step can fault, so safety here is that the invariants hold. -/

namespace Sys2Proof.Machine

/-- An event that is a clock edge with `rst = 0`. -/
def Event.plainEdge : Event → Bool
  | .edge rst _ _ _ => !rst
  | .mux _ _ => false
  | .tailor _ _ => false
  | .rom _ => false

/-- The next step is a clock edge with `rst = 1`. -/
def State.resetNow (s : State) : Bool :=
  match s.inputs with
  | .edge rst _ _ _ :: _ => rst
  | .mux _ _ :: _ => false
  | .tailor _ _ :: _ => false
  | .rom _ :: _ => false
  | [] => false

/-- The next step is a clock edge with `rst = 0`. -/
def State.clockNow (s : State) : Bool :=
  match s.inputs with
  | e :: _ => e.plainEdge
  | [] => true

/-- The next `k` steps are clock edges with `rst = 0`, whatever the other ports carry. -/
def State.clockFor (k : Nat) (s : State) : Bool := (s.inputs.take k).all Event.plainEdge

/-- The next step accepts the command word `w` (43_compression_core.md R192). -/
def State.acceptsNow (s : State) (w : BitVec 16) : Prop :=
  s.fsm = .idle ∧ ∃ blk rest, s.inputs = .edge false true w blk :: rest

/-- The control registers stay consistent (10_state.md R27, R28, R29, R30, R32, R33; 60_exceptions.md R281). -/
structure ControlInv (s : State) : Prop where
  /-- Whenever PHASE = 1, CFG_N and CFG_DW hold legal values (R27). -/
  cfgLegal : s.phase = .configured →
    3 ≤ s.cfgN.toNat ∧ s.cfgN.toNat ≤ 5 ∧ 4 ≤ s.cfgDw.toNat ∧ s.cfgDw.toNat ≤ 8
  /-- FIN = 1 implies PHASE = 1 (R28). -/
  finConfigured : s.fin = true → s.phase = .configured
  /-- A COMPRESS executes only when configured and not finalized, and its (P, S) is in range (R30, 43 R203). -/
  busyInRange : s.fsm ≠ .idle → s.phase = .configured ∧ s.fin = false ∧ 1 ≤ s.P.toNat ∧ s.P.toNat ≤ s.cfgN.toNat
  /-- The feed-forward edge comes after step (CFG_N, 31) (R30). -/
  ffAtEnd : s.fsm = .ff → s.P = s.cfgN ∧ s.S.toNat = 31
  /-- An error in LAST_STATUS is also in ERR_STICKY (R32). -/
  errorIsSticky : s.lastStatus ≠ .ok → s.errSticky = true
  /-- A response is shown only while the core is idle (R33, 43 R193). -/
  responseIdle : s.rspValid = true → s.fsm = .idle

/-- While FIN = 1, D is the digest of H at length CFG_DW, zero-filled (10_state.md R25; 43_compression_core.md R210,
R212), whatever the open values are. -/
def DigestInv (s : State) : Prop := s.fin = true → ∀ any, s.D = latchedDigest any s.cfgDw s.H

/-- While a COMPRESS runs, W is the window after the steps done so far from W = H on the block in M
(43_compression_core.md R203, R206, R207), whatever the open values are. -/
structure WindowInv (s : State) : Prop where
  /-- in RUN, `32 * (P - 1) + S` steps are done (70_reset_and_hazards.md R311) -/
  running : s.fsm = .run →
    ∀ any, s.W = windowAfter any s.cfgN s.M s.H (32 * (s.P.toNat - 1) + s.S.toNat)
  /-- in FF, all `32 * CFG_N` steps are done -/
  finished : s.fsm = .ff → ∀ any, s.W = windowAfter any s.cfgN s.M s.H (32 * s.cfgN.toNat)

end Sys2Proof.Machine
end

