-- ==== Sys2Proof/Certificates/Slice0/Obligations.lean ====
section
/-! DEFINITION. The statements for the provers, and the spec's tables as lists, written out a second time for them. -/

namespace Sys2Proof.Claims

/-- The rows of 42_pass_schedule_rom.md R162: n, p and phi_sel[0..6]. -/
def phiRows : List (Nat × Nat × List (BitVec 3)) :=
  [(3, 1, [4, 2, 6, 5, 3, 0, 1]), (3, 2, [6, 3, 5, 0, 1, 2, 4]),
   (3, 3, [0, 5, 4, 3, 2, 1, 6]), (4, 1, [0, 3, 5, 4, 1, 6, 2]),
   (4, 2, [4, 6, 1, 0, 2, 5, 3]), (4, 3, [5, 2, 0, 6, 3, 4, 1]),
   (4, 4, [3, 1, 2, 5, 0, 4, 6]), (5, 1, [6, 2, 5, 0, 1, 4, 3]),
   (5, 2, [5, 4, 3, 0, 1, 2, 6]), (5, 3, [5, 1, 3, 4, 0, 6, 2]),
   (5, 4, [6, 4, 0, 2, 3, 5, 1]), (5, 5, [1, 3, 4, 6, 0, 5, 2])]

/-- The row of R163 for pass 1. -/
def ordRow1 : List (BitVec 5) :=
  [0, 1, 2, 3, 4, 5, 6, 7]
  ++ [8, 9, 10, 11, 12, 13, 14, 15]
  ++ [16, 17, 18, 19, 20, 21, 22, 23]
  ++ [24, 25, 26, 27, 28, 29, 30, 31]

/-- The row of R163 for pass 2. -/
def ordRow2 : List (BitVec 5) :=
  [5, 14, 26, 18, 11, 28, 7, 16]
  ++ [0, 23, 20, 22, 1, 10, 4, 8]
  ++ [30, 3, 21, 9, 17, 24, 29, 6]
  ++ [19, 12, 15, 13, 2, 25, 31, 27]

/-- The row of R163 for pass 3. -/
def ordRow3 : List (BitVec 5) :=
  [19, 9, 4, 20, 28, 17, 8, 22]
  ++ [29, 14, 25, 12, 24, 30, 16, 26]
  ++ [31, 15, 7, 3, 1, 0, 18, 27]
  ++ [13, 6, 21, 10, 23, 11, 5, 2]

/-- The row of R163 for pass 4. -/
def ordRow4 : List (BitVec 5) :=
  [24, 4, 0, 14, 2, 7, 28, 23]
  ++ [26, 6, 30, 20, 18, 25, 19, 3]
  ++ [22, 11, 31, 21, 8, 27, 12, 9]
  ++ [1, 29, 5, 15, 17, 10, 16, 13]

/-- The row of R163 for pass 5. -/
def ordRow5 : List (BitVec 5) :=
  [27, 3, 21, 26, 17, 11, 20, 29]
  ++ [19, 0, 12, 7, 13, 8, 31, 10]
  ++ [5, 9, 14, 30, 18, 6, 28, 24]
  ++ [2, 23, 16, 22, 4, 1, 25, 15]

/-- R163: pass and row. -/
def ordRows : List (Nat × List (BitVec 5)) := [(1, ordRow1), (2, ordRow2), (3, ordRow3), (4, ordRow4), (5, ordRow5)]

/-- The table of R164 for pass 2. -/
def kRow2 : List Word :=
  [0x452821E6, 0x38D01377, 0xBE5466CF, 0x34E90C6C]
  ++ [0xC0AC29B7, 0xC97C50DD, 0x3F84D5B5, 0xB5470917]
  ++ [0x9216D5D9, 0x8979FB1B, 0xD1310BA6, 0x98DFB5AC]
  ++ [0x2FFD72DB, 0xD01ADFB7, 0xB8E1AFED, 0x6A267E96]
  ++ [0xBA7C9045, 0xF12C7F99, 0x24A19947, 0xB3916CF7]
  ++ [0x0801F2E2, 0x858EFC16, 0x636920D8, 0x71574E69]
  ++ [0xA458FEA3, 0xF4933D7E, 0x0D95748F, 0x728EB658]
  ++ [0x718BCD58, 0x82154AEE, 0x7B54A41D, 0xC25A59B5]

/-- The table of R164 for pass 3. -/
def kRow3 : List Word :=
  [0x9C30D539, 0x2AF26013, 0xC5D1B023, 0x286085F0]
  ++ [0xCA417918, 0xB8DB38EF, 0x8E79DCB0, 0x603A180E]
  ++ [0x6C9E0E8B, 0xB01E8A3E, 0xD71577C1, 0xBD314B27]
  ++ [0x78AF2FDA, 0x55605C60, 0xE65525F3, 0xAA55AB94]
  ++ [0x57489862, 0x63E81440, 0x55CA396A, 0x2AAB10B6]
  ++ [0xB4CC5C34, 0x1141E8CE, 0xA15486AF, 0x7C72E993]
  ++ [0xB3EE1411, 0x636FBC2A, 0x2BA9C55D, 0x741831F6]
  ++ [0xCE5C3E16, 0x9B87931E, 0xAFD6BA33, 0x6C24CF5C]

/-- The table of R164 for pass 4. -/
def kRow4 : List Word :=
  [0x7A325381, 0x28958677, 0x3B8F4898, 0x6B4BB9AF]
  ++ [0xC4BFE81B, 0x66282193, 0x61D809CC, 0xFB21A991]
  ++ [0x487CAC60, 0x5DEC8032, 0xEF845D5D, 0xE98575B1]
  ++ [0xDC262302, 0xEB651B88, 0x23893E81, 0xD396ACC5]
  ++ [0x0F6D6FF3, 0x83F44239, 0x2E0B4482, 0xA4842004]
  ++ [0x69C8F04A, 0x9E1F9B5E, 0x21C66842, 0xF6E96C9A]
  ++ [0x670C9C61, 0xABD388F0, 0x6A51A0D2, 0xD8542F68]
  ++ [0x960FA728, 0xAB5133A3, 0x6EEF0B6C, 0x137A3BE4]

/-- The table of R164 for pass 5. -/
def kRow5 : List Word :=
  [0xBA3BF050, 0x7EFB2A98, 0xA1F1651D, 0x39AF0176]
  ++ [0x66CA593E, 0x82430E88, 0x8CEE8619, 0x456F9FB4]
  ++ [0x7D84A5C3, 0x3B8B5EBE, 0xE06F75D8, 0x85C12073]
  ++ [0x401A449F, 0x56C16AA6, 0x4ED3AA62, 0x363F7706]
  ++ [0x1BFEDF72, 0x429B023D, 0x37D0D724, 0xD00A1248]
  ++ [0xDB0FEAD3, 0x49F1C09B, 0x075372C9, 0x80991B7B]
  ++ [0x25D479D8, 0xF6E8DEF7, 0xE3FE501A, 0xB6794C3B]
  ++ [0x976CE0BD, 0x04C006BA, 0xC1A94FB6, 0x409F60C4]

/-- R164: pass and table; pass 1 is 32 zeros. -/
def kRows : List (Nat × List Word) := [(1, List.replicate 32 0), (2, kRow2), (3, kRow3), (4, kRow4), (5, kRow5)]

/-- The lane input index of 40_boolean_functions.md R119 at bit `i`. -/
def laneIndex (x : Vec7 Word) (i : Nat) : Nat :=
  64 * (x.e6.getLsbD i).toNat + 32 * (x.e5.getLsbD i).toNat + 16 * (x.e4.getLsbD i).toNat +
    8 * (x.e3.getLsbD i).toNat + 4 * (x.e2.getLsbD i).toNat + 2 * (x.e1.getLsbD i).toNat + (x.e0.getLsbD i).toNat

/-- Eight words, all zero but for bit `b` of word `k`. -/
def oneBit (k : Fin 8) (b : Fin 32) : Vec8 Word := .tabulate fun i => if i = k then BitVec.twoPow 32 b.val else 0

/-- A COMPRESS that will start: PHASE = 1 and FIN = 0 (43_compression_core.md R203). -/
def compressStarts (s : Machine.State) : Prop := s.phase = .configured ∧ s.fin = false

/-- The status of a command word that completes at its acceptance edge, by the causes of 60_exceptions.md R270 in the order
of R276, and by the word's fields as numbers (30_encoding.md R80 to R84). -/
def wordStatus (s : Machine.State) (w : BitVec 16) : Machine.Status :=
  let opc := w.toNat % 16
  let dw := w.toNat / 16 % 16
  let n := w.toNat / 256 % 8
  if 4 ≤ opc ∨ (opc = 1 ∧ 2048 ≤ w.toNat) ∨ (opc ≠ 1 ∧ 16 ≤ w.toNat) then .illegalCmd
  else if opc = 1 ∧ (dw < 4 ∨ 8 < dw ∨ n < 3 ∨ 5 < n) then .configError
  else if 2 ≤ opc ∧ s.phase = .unconfigured then .notConfigured
  else if opc = 2 ∧ s.fin = true then .finalized
  else .ok

end Sys2Proof.Claims

open Sys2Proof Sys2Proof.Machine Sys2Proof.Claims

/-- 43_compression_core.md R200. -/
def Obligations.NopWritesOkOnly : Prop :=
  decode (.cmd 0x0000#16) = .nop ∧ ∀ s : State, exec .nop s = .next { s with lastStatus := .ok, rspValid := true }

/-- R201. -/
def Obligations.InitLoadsIvAndConfiguration : Prop :=
  ∀ (s : State) (dw : BitVec 4) (n : BitVec 3),
    4 ≤ dw.toNat → dw.toNat ≤ 8 → 3 ≤ n.toNat → n.toNat ≤ 5 →
    decode (.cmd (0#5 ++ n ++ dw ++ 1#4)) = .init dw n ∧ exec (.init dw n) s = .next
      { s with
        H := ⟨0x243F6A88, 0x85A308D3, 0x13198A2E, 0x03707344, 0xA4093822, 0x299F31D0, 0x082EFA98, 0xEC4E6C89⟩
        cfgN := n
        cfgDw := dw
        phase := .configured
        fin := false
        lastStatus := .ok
        rspValid := true }

/-- R202, R271. -/
def Obligations.InitIllegalFieldsClearPhase : Prop :=
  ∀ (s : State) (dw : BitVec 4) (n : BitVec 3),
    dw.toNat < 4 ∨ 8 < dw.toNat ∨ n.toNat < 3 ∨ 5 < n.toNat →
    decode (.cmd (0#5 ++ n ++ dw ++ 1#4)) = .init dw n ∧ exec (.init dw n) s = .next
      { s with phase := .unconfigured, fin := false, lastStatus := .configError, errSticky := true, rspValid := true }

/-- R203: the acceptance edge of a COMPRESS that starts. It is not a completion edge (R193). -/
def Obligations.CompressStartLoadsBlockAndWindow : Prop :=
  decode (.cmd 0x0002#16) = .compress ∧ ∀ s : State, s.phase = .configured → s.fin = false →
    exec .compress s = .next
      { s with M := s.blkPort, W := s.H, P := 1#3, S := 0#5, fsm := .run, rspValid := false }

/-- R204, R205. -/
def Obligations.CompressRejectedWithoutEffect : Prop :=
  ∀ s : State,
    (s.phase = .unconfigured →
      exec .compress s = .next { s with lastStatus := .notConfigured, errSticky := true, rspValid := true }) ∧
    (s.phase = .configured → s.fin = true →
      exec .compress s = .next { s with lastStatus := .finalized, errSticky := true, rspValid := true })

/-- R210, with the legal CFG_DW of R27; what the words of `tailor` are at each legal length,
`TailorPlacesFieldsByBitMap` says. -/
def Obligations.FinalizeLatchesTailoredDigest : Prop :=
  decode (.cmd 0x0003#16) = .finalize ∧
  ∀ (s : State) (any : AnyValue), s.phase = .configured → 4 ≤ s.cfgDw.toNat → s.cfgDw.toNat ≤ 8 →
    ∃ t, exec .finalize s = .next t ∧
      t = { s with D := t.D, fin := true, lastStatus := .ok, rspValid := true } ∧
      ∀ i : Fin 8, t.D.get i = if i.val < s.cfgDw.toNat then (tailor any s.cfgDw s.H).get i else 0

/-- R211. -/
def Obligations.FinalizeUnconfiguredRejected : Prop :=
  ∀ s : State, s.phase = .unconfigured →
    exec .finalize s = .next { s with lastStatus := .notConfigured, errSticky := true, rspValid := true }

/-- R212 (derived there): a second FINALIZE writes the same D and changes nothing. -/
def Obligations.FinalizeRepeatedChangesNothing : Prop :=
  ∀ s t : State, s.phase = .configured → 4 ≤ s.cfgDw.toNat → s.cfgDw.toNat ≤ 8 →
    exec .finalize s = .next t → exec .finalize t = .next t

/-- R213, with 30_encoding.md R83 and R84: which command words are illegal, by the word's fields as numbers, and what each
of them does; then the three instructions such words decode to. -/
def Obligations.IllegalWordsWriteIllegalCmd : Prop :=
  ∀ (s : State) (w : BitVec 16) (rest : BitVec 12) (lo2 : BitVec 2) (lo3 : BitVec 3) (opc : BitVec 2),
    let t : State := { s with lastStatus := .illegalCmd, errSticky := true, rspValid := true }
    (4 ≤ w.toNat % 16 ∨ (w.toNat % 16 = 1 ∧ 2048 ≤ w.toNat) ∨ (w.toNat % 16 ≠ 1 ∧ 16 ≤ w.toNat) →
      exec (decode (.cmd w)) s = .next t) ∧
    exec (.reservedOpc4to7 rest lo2) s = .next t ∧
    exec (.reservedOpc8toF rest lo3) s = .next t ∧
    exec (.illegalReservedBits rest opc) s = .next t

/-- 40_boolean_functions.md R112 to R116, on the mux driven alone; nothing but its output wire changes. -/
def Obligations.MuxAloneComputesFiveFunctions : Prop :=
  ∀ s : State,
    let x0 := s.muxIn.e0
    let x1 := s.muxIn.e1
    let x2 := s.muxIn.e2
    let x3 := s.muxIn.e3
    let x4 := s.muxIn.e4
    let x5 := s.muxIn.e5
    let x6 := s.muxIn.e6
    (decode (.fsel 1#3) = .f1 ∧ decode (.fsel 2#3) = .f2 ∧ decode (.fsel 3#3) = .f3 ∧ decode (.fsel 4#3) = .f4 ∧
      decode (.fsel 5#3) = .f5) ∧
    exec .f1 s = .next { s with muxOut := (x1 &&& (x0 ^^^ x4)) ^^^ (x2 &&& x5) ^^^ (x3 &&& x6) ^^^ x0 } ∧
    exec .f2 s = .next { s with muxOut :=
      (x2 &&& ((x1 &&& ~~~x3) ^^^ (x4 &&& x5) ^^^ x6 ^^^ x0)) ^^^ (x4 &&& (x1 ^^^ x5)) ^^^ (x3 &&& x5) ^^^ x0 } ∧
    exec .f3 s = .next { s with muxOut :=
      (x3 &&& ((x1 &&& x2) ^^^ x6 ^^^ x0)) ^^^ (x1 &&& x4) ^^^ (x2 &&& x5) ^^^ x0 } ∧
    exec .f4 s = .next { s with muxOut :=
      (x3 &&& ((x1 &&& x2) ^^^ (x4 ||| x6) ^^^ x5)) ^^^ (x4 &&& ((~~~x2 &&& x5) ^^^ x1 ^^^ x6 ^^^ x0)) ^^^
        (x2 &&& x6) ^^^ x0 } ∧
    exec .f5 s = .next { s with muxOut :=
      (x0 &&& ~~~((x1 &&& x2 &&& x3) ^^^ x5)) ^^^ (x1 &&& x4) ^^^ (x2 &&& x5) ^^^ (x3 &&& x6) }

/-- R118 for the reserved codes: the unit answers, its output is any value (`v` is a free value, log 3, log 9), and
nothing else of the hardware changes; `draws` is the model's count of free values. -/
def Obligations.MuxReservedCodesOutputAnyValue : Prop :=
  ∀ (s : State) (lo : BitVec 1),
    (∃ v, exec .fselReserved s = .next { s with muxOut := v, draws := s.draws + 1 }) ∧
    (∃ v, exec (.fselReserved6 lo) s = .next { s with muxOut := v, draws := s.draws + 1 })

/-- R111 and R119: each lane of each function is its truth table at the seven lane bits. -/
def Obligations.FunctionsFollowTruthTables : Prop :=
  ∀ (any : AnyValue) (x : Vec7 Word) (i : Nat), i < 32 →
    (boolMux any 1#3 x).getLsbD i = (0xE11E2DD211EEDD221E1ED2D2EEEE2222#128).getLsbD (laneIndex x i) ∧
    (boolMux any 2#3 x).getLsbD i = (0xC6F9053A36F6FA3A3609F5CAC6060ACA#128).getLsbD (laneIndex x i) ∧
    (boolMux any 3#3 x).getLsbD i = (0x0396CF5AF3663FAAFC96305A0C66C0AA#128).getLsbD (laneIndex x i) ∧
    (boolMux any 4#3 x).getLsbD i = (0x0CCC9A5AFCC3655A03C395AAF3CC6AAA#128).getLsbD (laneIndex x i) ∧
    (boolMux any 5#3 x).getLsbD i = (0x433C8FF01966D5AABC3C70F0E6662AAA#128).getLsbD (laneIndex x i)

/-- R117: the source's forms equal the published algebraic normal forms on every word. -/
def Obligations.FunctionsEqualNormalForms : Prop :=
  ∀ (any : AnyValue) (x0 x1 x2 x3 x4 x5 x6 : Word),
    let a : Vec7 Word := ⟨x0, x1, x2, x3, x4, x5, x6⟩
    boolMux any 1#3 a = (x1 &&& x4) ^^^ (x2 &&& x5) ^^^ (x3 &&& x6) ^^^ (x0 &&& x1) ^^^ x0 ∧
    boolMux any 2#3 a = (x1 &&& x2 &&& x3) ^^^ (x2 &&& x4 &&& x5) ^^^ (x1 &&& x2) ^^^ (x1 &&& x4) ^^^ (x2 &&& x6) ^^^
      (x3 &&& x5) ^^^ (x4 &&& x5) ^^^ (x0 &&& x2) ^^^ x0 ∧
    boolMux any 3#3 a = (x1 &&& x2 &&& x3) ^^^ (x1 &&& x4) ^^^ (x2 &&& x5) ^^^ (x3 &&& x6) ^^^ (x0 &&& x3) ^^^ x0 ∧
    boolMux any 4#3 a = (x1 &&& x2 &&& x3) ^^^ (x2 &&& x4 &&& x5) ^^^ (x3 &&& x4 &&& x6) ^^^ (x1 &&& x4) ^^^
      (x2 &&& x6) ^^^ (x3 &&& x4) ^^^ (x3 &&& x5) ^^^ (x3 &&& x6) ^^^ (x4 &&& x5) ^^^ (x4 &&& x6) ^^^ (x0 &&& x4) ^^^ x0 ∧
    boolMux any 5#3 a = (x1 &&& x4) ^^^ (x2 &&& x5) ^^^ (x3 &&& x6) ^^^ (x0 &&& x1 &&& x2 &&& x3) ^^^ (x0 &&& x5) ^^^ x0

/-- R120 and vector V6 of 95_test_vectors.md: the same word on every input. -/
def Obligations.FunctionsOnEqualInputs : Prop :=
  ∀ (any : AnyValue) (v : Word),
    let a : Vec7 Word := ⟨v, v, v, v, v, v, v⟩
    boolMux any 1#3 a = v ∧ boolMux any 2#3 a = v ∧ boolMux any 3#3 a = 0 ∧ boolMux any 4#3 a = 0 ∧
      boolMux any 5#3 a = 0

/-- 00_scope.md R11: `rotr` and `rotl` of the spec are the rotations of a 32-bit word. -/
def Obligations.RotationsAreBitRotations : Prop :=
  ∀ (v : Word) (k : Nat), k ≤ 31 →
    rotr v k = v.rotateRight k ∧ rotl v k = v.rotateLeft k ∧ rotl (rotr v k) k = v

/-- 44_output_tailor.md R241 to R246, on the tailor driven alone; nothing but its output wires changes. -/
def Obligations.TailorAloneComputesDigestWords : Prop :=
  ∀ s : State,
    let h := s.tailorIn
    (decode (.dw 8#4) = .tailorDw8 ∧ decode (.dw 7#4) = .tailorDw7 ∧ decode (.dw 6#4) = .tailorDw6 ∧
      decode (.dw 5#4) = .tailorDw5 ∧ decode (.dw 4#4) = .tailorDw4) ∧
    exec .tailorDw8 s = .next { s with tailorOut := h } ∧
    exec .tailorDw7 s = .next { s with tailorOut :=
      ⟨h.e0 + ((h.e7 >>> 27) &&& 0x1F), h.e1 + ((h.e7 >>> 22) &&& 0x1F), h.e2 + ((h.e7 >>> 18) &&& 0x0F),
       h.e3 + ((h.e7 >>> 13) &&& 0x1F), h.e4 + ((h.e7 >>> 9) &&& 0x0F), h.e5 + ((h.e7 >>> 4) &&& 0x1F),
       h.e6 + (h.e7 &&& 0x0F), 0⟩ } ∧
    exec .tailorDw6 s = .next { s with tailorOut :=
      ⟨h.e0 + rotr ((h.e7 &&& 0x0000001F) ||| (h.e6 &&& 0xFC000000)) 26,
       h.e1 + ((h.e7 &&& 0x000003E0) ||| (h.e6 &&& 0x0000001F)),
       h.e2 + (((h.e7 &&& 0x0000FC00) ||| (h.e6 &&& 0x000003E0)) >>> 5),
       h.e3 + (((h.e7 &&& 0x001F0000) ||| (h.e6 &&& 0x0000FC00)) >>> 10),
       h.e4 + (((h.e7 &&& 0x03E00000) ||| (h.e6 &&& 0x001F0000)) >>> 16),
       h.e5 + (((h.e7 &&& 0xFC000000) ||| (h.e6 &&& 0x03E00000)) >>> 21), 0, 0⟩ } ∧
    exec .tailorDw5 s = .next { s with tailorOut :=
      ⟨h.e0 + rotr ((h.e7 &&& 0x0000003F) ||| (h.e6 &&& 0xFE000000) ||| (h.e5 &&& 0x01F80000)) 19,
       h.e1 + rotr ((h.e7 &&& 0x00000FC0) ||| (h.e6 &&& 0x0000003F) ||| (h.e5 &&& 0xFE000000)) 25,
       h.e2 + ((h.e7 &&& 0x0007F000) ||| (h.e6 &&& 0x00000FC0) ||| (h.e5 &&& 0x0000003F)),
       h.e3 + (((h.e7 &&& 0x01F80000) ||| (h.e6 &&& 0x0007F000) ||| (h.e5 &&& 0x00000FC0)) >>> 6),
       h.e4 + (((h.e7 &&& 0xFE000000) ||| (h.e6 &&& 0x01F80000) ||| (h.e5 &&& 0x0007F000)) >>> 12), 0, 0, 0⟩ } ∧
    exec .tailorDw4 s = .next { s with tailorOut :=
      ⟨h.e0 + rotr ((h.e7 &&& 0x000000FF) ||| (h.e6 &&& 0xFF000000) ||| (h.e5 &&& 0x00FF0000) |||
         (h.e4 &&& 0x0000FF00)) 8,
       h.e1 + rotr ((h.e7 &&& 0x0000FF00) ||| (h.e6 &&& 0x000000FF) ||| (h.e5 &&& 0xFF000000) |||
         (h.e4 &&& 0x00FF0000)) 16,
       h.e2 + rotr ((h.e7 &&& 0x00FF0000) ||| (h.e6 &&& 0x0000FF00) ||| (h.e5 &&& 0x000000FF) |||
         (h.e4 &&& 0xFF000000)) 24,
       h.e3 + ((h.e7 &&& 0xFF000000) ||| (h.e6 &&& 0x00FF0000) ||| (h.e5 &&& 0x0000FF00) |||
         (h.e4 &&& 0x000000FF)), 0, 0, 0, 0⟩ }

/-- R247: the unit answers, its outputs are any value (free values, log 3, log 9), and nothing else changes. -/
def Obligations.TailorOtherLengthsOutputAnyValue : Prop :=
  ∀ (s : State) (dw : BitVec 4),
    ∃ d, exec (.tailorDwOther dw) s = .next { s with tailorOut := d, draws := s.draws + 1 }

/-- The bit maps of 95_test_vectors.md section 6.2: what is added to each `h[i]` is a concatenation of fields of the
extra words; at dw = 8 there is no extra word and the tailor copies (44_output_tailor.md R241). -/
def Obligations.TailorPlacesFieldsByBitMap : Prop :=
  ∀ (any : AnyValue) (h : Vec8 Word),
    let f4 (lo : Nat) (w : Word) : BitVec 4 := w.extractLsb' lo 4
    let f5 (lo : Nat) (w : Word) : BitVec 5 := w.extractLsb' lo 5
    let f6 (lo : Nat) (w : Word) : BitVec 6 := w.extractLsb' lo 6
    let f7 (lo : Nat) (w : Word) : BitVec 7 := w.extractLsb' lo 7
    let f8 (lo : Nat) (w : Word) : BitVec 8 := w.extractLsb' lo 8
    tailor any 4#4 h =
      ⟨h.e0 + (f8 0 h.e7 ++ f8 24 h.e6 ++ f8 16 h.e5 ++ f8 8 h.e4),
       h.e1 + (f8 8 h.e7 ++ f8 0 h.e6 ++ f8 24 h.e5 ++ f8 16 h.e4),
       h.e2 + (f8 16 h.e7 ++ f8 8 h.e6 ++ f8 0 h.e5 ++ f8 24 h.e4),
       h.e3 + (f8 24 h.e7 ++ f8 16 h.e6 ++ f8 8 h.e5 ++ f8 0 h.e4), 0, 0, 0, 0⟩ ∧
    tailor any 5#4 h =
      ⟨h.e0 + (0#13 ++ f6 0 h.e7 ++ f7 25 h.e6 ++ f6 19 h.e5),
       h.e1 + (0#13 ++ f6 6 h.e7 ++ f6 0 h.e6 ++ f7 25 h.e5),
       h.e2 + (0#13 ++ f7 12 h.e7 ++ f6 6 h.e6 ++ f6 0 h.e5),
       h.e3 + (0#13 ++ f6 19 h.e7 ++ f7 12 h.e6 ++ f6 6 h.e5),
       h.e4 + (0#12 ++ f7 25 h.e7 ++ f6 19 h.e6 ++ f7 12 h.e5), 0, 0, 0⟩ ∧
    tailor any 6#4 h =
      ⟨h.e0 + (0#21 ++ f5 0 h.e7 ++ f6 26 h.e6), h.e1 + (0#22 ++ f5 5 h.e7 ++ f5 0 h.e6),
       h.e2 + (0#21 ++ f6 10 h.e7 ++ f5 5 h.e6), h.e3 + (0#21 ++ f5 16 h.e7 ++ f6 10 h.e6),
       h.e4 + (0#22 ++ f5 21 h.e7 ++ f5 16 h.e6), h.e5 + (0#21 ++ f6 26 h.e7 ++ f5 21 h.e6), 0, 0⟩ ∧
    tailor any 7#4 h =
      ⟨h.e0 + (0#27 ++ f5 27 h.e7), h.e1 + (0#27 ++ f5 22 h.e7), h.e2 + (0#28 ++ f4 18 h.e7),
       h.e3 + (0#27 ++ f5 13 h.e7), h.e4 + (0#28 ++ f4 9 h.e7), h.e5 + (0#27 ++ f5 4 h.e7),
       h.e6 + (0#28 ++ f4 0 h.e7), 0⟩ ∧
    tailor any 8#4 h = h

/-- R248: for dw = 4..7, a single bit of an extra word h[dw..7] lands at exactly one place of the digest, and different
bits land at different places. -/
def Obligations.TailorUsesEveryExtraBitOnce : Prop :=
  ∀ (any : AnyValue) (dw : BitVec 4) (k : Fin 8) (b : Fin 32),
    4 ≤ dw.toNat → dw.toNat ≤ 7 → dw.toNat ≤ k.val →
    ∃ (i : Fin 8) (c : Fin 32), i.val < dw.toNat ∧
      (∀ j : Fin 8, (tailor any dw (oneBit k b)).get j = if j = i then BitVec.twoPow 32 c.val else 0) ∧
      ∀ (k' : Fin 8) (b' : Fin 32), dw.toNat ≤ k'.val →
        tailor any dw (oneBit k' b') = tailor any dw (oneBit k b) → k' = k ∧ b' = b

/-- 42_pass_schedule_rom.md R160 to R164: a read at a valid address gives the tables' values; nothing but the ROM's
output wires changes. The ROM driven alone as an instruction, with output wires of its own, is the model's choice (log 6).
The ROM's `iv` output is the IV at every address (R160). -/
def Obligations.RomAloneReadsTables : Prop :=
  ∀ (s : State) (n p : BitVec 3) (k : BitVec 5) (row : List (BitVec 3)) (ords : List (BitVec 5)) (ks : List Word),
    (n.toNat, p.toNat, row) ∈ phiRows → (p.toNat, ords) ∈ ordRows → (p.toNat, ks) ∈ kRows →
    ∃ r, decode (.romAddr (n ++ p ++ k)) = .romRead n p k ∧
      exec (.romRead n p k) s = .next { s with romOut := r } ∧
      r.fsel = p ∧ (∀ j : Fin 7, row[j.val]? = some (r.phi.get j)) ∧
      ords[k.toNat]? = some r.widx ∧ ks[k.toNat]? = some r.rc ∧
      romIvPort = ⟨0x243F6A88, 0x85A308D3, 0x13198A2E, 0x03707344, 0xA4093822, 0x299F31D0, 0x082EFA98, 0xEC4E6C89⟩

/-- R167: at an invalid address the ROM answers with any values (free values, log 3, log 9); nothing else changes. -/
def Obligations.RomInvalidAddressOutputsAnyValue : Prop :=
  ∀ (s : State) (n p : BitVec 3) (k : BitVec 5),
    n.toNat < 3 ∨ 5 < n.toNat ∨ p.toNat = 0 ∨ n.toNat < p.toNat →
    ∃ r, exec (.romRead n p k) s = .next { s with romOut := r, draws := s.draws + 1 }

/-- R168: in every pass each message word is read exactly once, and the seven selectors name the seven registers
W[0..6], each once. Pass 1 is in natural order (R163) with zero constants (R164). -/
def Obligations.RomSchedulesArePermutations : Prop :=
  ∀ (any : AnyValue) (n p : BitVec 3), 3 ≤ n.toNat → n.toNat ≤ 5 → 1 ≤ p.toNat → p.toNat ≤ n.toNat →
    (∀ k : BitVec 5, ∃ s : BitVec 5, (romRead any n p s).widx = k ∧
      ∀ s' : BitVec 5, (romRead any n p s').widx = k → s' = s) ∧
    (∀ s : BitVec 5, ∀ j : Fin 7, ∃ i : Fin 7, ((romRead any n p s).phi.get i).toNat = j.val ∧
      ∀ i' : Fin 7, ((romRead any n p s).phi.get i').toNat = j.val → i' = i) ∧
    (p = 1#3 → ∀ s : BitVec 5, (romRead any n p s).widx = s ∧ (romRead any n p s).rc = 0) ∧
    (p ≠ 1#3 → ∃ s : BitVec 5, (romRead any n p s).widx ≠ s)

/-- A step runs the decoded instruction: a command presented to the idle core, and a code put on a unit's wires, on the
state with the ports sampled. The separate drive of a unit is log 6, the count of draws log 3. -/
def Obligations.StepRunsDecodedInstruction : Prop :=
  ∀ (s : State) (rest : List Event),
    (∀ (w : BitVec 16) (blk : Vec32 Word), s.fsm = .idle → s.inputs = .edge false true w blk :: rest →
      step s = exec (decode (.cmd w)) { s with inputs := rest, blkPort := blk, draws := s.draws + 1 }) ∧
    (∀ (c : BitVec 3) (a : Vec7 Word), s.inputs = .mux c a :: rest →
      step s = exec (decode (.fsel c)) { s with inputs := rest, muxIn := a, draws := s.draws + 1 }) ∧
    (∀ (dw : BitVec 4) (h : Vec8 Word), s.inputs = .tailor dw h :: rest →
      step s = exec (decode (.dw dw)) { s with inputs := rest, tailorIn := h, draws := s.draws + 1 }) ∧
    (∀ addr : BitVec 11, s.inputs = .rom addr :: rest →
      step s = exec (decode (.romAddr addr)) { s with inputs := rest, draws := s.draws + 1 })

/-- A word of the opcode table presented by `withFetchWord` is what the very next step runs (log 7, log 11). -/
def Obligations.PresentedWordRunsNext : Prop :=
  ∀ (s : State) (nbits w : Nat) (i : Instr), decodeTableWord nbits w = some i →
    ∃ s', step (s.withFetchWord nbits w) = exec i s' ∧
      s' = { s with fsm := s'.fsm, inputs := s.inputs.tail, blkPort := s'.blkPort, draws := s.draws + 1 } ∧
      (s.fsm = .idle → s'.fsm = .idle)

/-- 43 R192 and 70 R320: while the core is not idle, what stands on `cmd_valid`, `cmd` and `blk` does not matter. -/
def Obligations.BusyCoreIgnoresCommandPort : Prop :=
  ∀ (s : State) (v v' : Bool) (w w' : BitVec 16) (b b' b0 : Vec32 Word) (rest : List Event), s.fsm ≠ .idle →
    ∃ t t', step { s with inputs := .edge false v w b :: rest } = .next t ∧
      step { s with inputs := .edge false v' w' b' :: rest } = .next t' ∧
      ({ t with blkPort := b0 } : State) = { t' with blkPort := b0 } ∧ cmdReady false s = false

/-- 70 R300 and R301: a clock edge with `rst = 1`, in any state, gives the control registers their reset values and
accepts no command. What the other registers hold afterwards is open (R303; the model's free values, log 2). -/
def Obligations.ResetEdgeSetsControlRegisters : Prop :=
  ∀ s : State, s.resetNow = true →
    ∃ t, step s = .next t ∧ t.phase = .unconfigured ∧ t.fin = false ∧ t.fsm = .idle ∧ t.lastStatus = .ok ∧
      t.errSticky = false ∧ t.rspValid = false ∧ t.inputs = s.inputs.tail ∧ cmdReady true s = false ∧
      cmdReady false t = true

/-- 70 R301: the state after reset has the values the spec gives; the named values of the other registers are log 1. -/
def Obligations.ResetStateHasGivenValues : Prop :=
  State.reset.phase = .unconfigured ∧ State.reset.fin = false ∧ State.reset.fsm = .idle ∧
    State.reset.lastStatus = .ok ∧ State.reset.errSticky = false ∧ State.reset.rspValid = false

/-- 70 R301 (derived there): the outputs after a reset edge. -/
def Obligations.OutputsAfterReset : Prop :=
  ∀ s t : State, s.resetNow = true → step s = .next t →
    cmdReady false t = true ∧ rspValidPort t = false ∧ rspStatusPort t = 0#3 ∧ digestValidPort t = false ∧
      digestLenPort t = 0#6 ∧ (statusOutPort t).extractLsb' 0 8 = 0#8 ∧ (statusOutPort t).extractLsb' 15 1 = 0#1

/-- 43 R206 with 41 R143, R144: one step edge at a valid (CFG_N, P, S). Everything else is unchanged; the event that
stood on the ports is used up. The last two clauses on FSM and (P, S) say that `32 * (P - 1) + S` counts the steps, so that
a COMPRESS that starts at (1, 0) has exactly 32 * CFG_N step edges. -/
def Obligations.StepEdgeShiftsInNewWord : Prop :=
  ∀ (s : State) (any : AnyValue), s.fsm = .run → s.clockNow = true →
    3 ≤ s.cfgN.toNat → s.cfgN.toNat ≤ 5 → 1 ≤ s.P.toNat → s.P.toNat ≤ s.cfgN.toNat →
    let r := romRead any s.cfgN s.P s.S
    let a : Vec7 Word := .tabulate fun k => s.W.get (r.phi.get k).toFin
    let new := (boolMux any s.P a).rotateRight 7 + s.W.e7.rotateRight 11 + s.M.get r.widx.toFin + r.rc
    ∃ t, step s = .next t ∧ t.W = ⟨new, s.W.e0, s.W.e1, s.W.e2, s.W.e3, s.W.e4, s.W.e5, s.W.e6⟩ ∧
      (s.S.toNat < 31 → t.S.toNat = s.S.toNat + 1 ∧ t.P = s.P ∧ t.fsm = .run) ∧
      (s.S.toNat = 31 → s.P.toNat < s.cfgN.toNat → t.S.toNat = 0 ∧ t.P.toNat = s.P.toNat + 1 ∧ t.fsm = .run) ∧
      (s.S.toNat = 31 → s.P.toNat = s.cfgN.toNat → t.S = s.S ∧ t.P = s.P ∧ t.fsm = .ff) ∧
      (t.fsm = .ff ↔ 32 * (s.P.toNat - 1) + s.S.toNat + 1 = 32 * s.cfgN.toNat) ∧
      (t.fsm = .run → 32 * (t.P.toNat - 1) + t.S.toNat = 32 * (s.P.toNat - 1) + s.S.toNat + 1) ∧
      t = { s with
        W := t.W
        P := t.P
        S := t.S
        fsm := t.fsm
        rspValid := false
        inputs := s.inputs.tail
        blkPort := t.blkPort
        draws := t.draws }

/-- 43 R208: the feed-forward edge. Everything else is unchanged. -/
def Obligations.FeedForwardAddsWindow : Prop :=
  ∀ s : State, s.fsm = .ff → s.clockNow = true →
    ∃ t, step s = .next t ∧ (∀ i : Fin 8, t.H.get i = s.H.get i + s.W.get i) ∧
      t = { s with
        H := t.H
        fsm := .idle
        lastStatus := .ok
        rspValid := true
        inputs := s.inputs.tail
        blkPort := t.blkPort
        draws := t.draws }

/-- 43 R190: the transitions of the sequencer, in a state that keeps the control invariant (`ControlInvariantKept`): at
edges with `rst = 0`, and at a reset edge. -/
def Obligations.SequencerTransitions : Prop :=
  ∀ s t : State, ControlInv s → step s = .next t →
    (s.clockNow = true → s.fsm = .idle →
      (t.fsm = .run ↔ s.acceptsNow 0x0002#16 ∧ compressStarts s) ∧ (t.fsm = .run ∨ t.fsm = .idle)) ∧
    (s.clockNow = true → s.fsm = .run →
      (t.fsm = .ff ↔ s.P = s.cfgN ∧ s.S = 31#5) ∧ (t.fsm = .ff ∨ t.fsm = .run)) ∧
    (s.clockNow = true → s.fsm = .ff → t.fsm = .idle) ∧
    (s.resetNow = true → t.fsm = .idle)

/-- 43_compression_core.md R193 and 10_state.md R33: after a clock edge, RSP_VALID is 1 exactly when the edge was a
completion edge: the feed-forward edge, or the acceptance of a command that is not a COMPRESS that starts. There LAST_STATUS
is that command's status (`wordStatus`; OK at the feed-forward edge) and ERR_STICKY takes it in; at an edge that completes
nothing both stay. (A drive of a unit alone is no clock edge, log 6.) -/
def Obligations.ResponseExactlyAfterCompletion : Prop :=
  ∀ s t : State, (s.clockNow = true ∨ s.resetNow = true) → step s = .next t →
    (t.rspValid = true ↔ s.clockNow = true ∧
      (s.fsm = .ff ∨ ∃ w, s.acceptsNow w ∧ ¬ (w = 0x0002#16 ∧ compressStarts s))) ∧
    (s.clockNow = true → s.fsm = .ff → t.lastStatus = .ok) ∧
    (∀ w, s.acceptsNow w → ¬ (w = 0x0002#16 ∧ compressStarts s) → t.lastStatus = wordStatus s w) ∧
    (t.rspValid = true → t.errSticky = (s.errSticky || decide (t.lastStatus ≠ .ok))) ∧
    (s.clockNow = true → t.rspValid = false → t.lastStatus = s.lastStatus ∧ t.errSticky = s.errSticky)

/-- 60 R276: the order of the checks for one accepted command word, first match wins, by the word's fields as numbers
(30_encoding.md R80 to R85). -/
def Obligations.StatusFollowsCheckOrder : Prop :=
  ∀ (s : State) (w : BitVec 16),
    let opc := w.toNat % 16
    let dw := w.toNat / 16 % 16
    let n := w.toNat / 256 % 8
    ∃ t, exec (decode (.cmd w)) s = .next t ∧
      if 4 ≤ opc ∨ (opc = 1 ∧ 2048 ≤ w.toNat) ∨ (opc ≠ 1 ∧ 16 ≤ w.toNat) then t.lastStatus = .illegalCmd
      else if opc = 0 then t.lastStatus = .ok
      else if opc = 1 then
        if dw < 4 ∨ 8 < dw ∨ n < 3 ∨ 5 < n then t.lastStatus = .configError else t.lastStatus = .ok
      else if s.phase = .unconfigured then t.lastStatus = .notConfigured
      else if opc = 2 then
        if s.fin then t.lastStatus = .finalized else t.fsm = .run ∧ t.lastStatus = s.lastStatus ∧ t.rspValid = false
      else t.lastStatus = .ok ∧ t.fin = true

/-- 43 R194: a command that ends with an error changes nothing but LAST_STATUS, ERR_STICKY and RSP_VALID, except a
failed INIT, which also clears PHASE and FIN. -/
def Obligations.RejectedCommandChangesStatusOnly : Prop :=
  ∀ (s t : State) (w : BitVec 16), exec (decode (.cmd w)) s = .next t → t.rspValid = true → t.lastStatus ≠ .ok →
    (t.lastStatus ≠ .configError ∧
      t = { s with lastStatus := t.lastStatus, errSticky := true, rspValid := true }) ∨
    (t.lastStatus = .configError ∧
      t = { s with
        phase := .unconfigured
        fin := false
        lastStatus := .configError
        errSticky := true
        rspValid := true })

/-- 10_state.md R22: at any step without reset, H is kept but for the IV load of a legal INIT and the feed-forward edge.
(After a reset edge H is open, 70 R303.) -/
def Obligations.ChainingStateWrittenInTwoPlaces : Prop :=
  ∀ s t : State, step s = .next t → s.resetNow = false →
    t.H = s.H ∨
    (∃ w dw n, s.acceptsNow w ∧ decode (.cmd w) = .init dw n ∧ legalDw dw = true ∧ legalN n = true ∧
      t.H = ⟨0x243F6A88, 0x85A308D3, 0x13198A2E, 0x03707344, 0xA4093822, 0x299F31D0, 0x082EFA98, 0xEC4E6C89⟩) ∨
    (s.fsm = .ff ∧ s.clockNow = true ∧ ∀ i : Fin 8, t.H.get i = s.H.get i + s.W.get i)

/-- 10_state.md R20 (written by), R23, R24, R25, R30: what writes W, M, D, P and S, without reset. -/
def Obligations.WindowBlockAndDigestWriters : Prop :=
  ∀ s t : State, step s = .next t → s.resetNow = false →
    (t.M ≠ s.M → s.acceptsNow 0x0002#16 ∧ compressStarts s) ∧
    (t.W ≠ s.W → (s.acceptsNow 0x0002#16 ∧ compressStarts s) ∨ (s.fsm = .run ∧ s.clockNow = true)) ∧
    (t.D ≠ s.D → s.acceptsNow 0x0003#16 ∧ s.phase = .configured) ∧
    (t.P ≠ s.P ∨ t.S ≠ s.S →
      (s.acceptsNow 0x0002#16 ∧ compressStarts s ∧ t.P = 1#3 ∧ t.S = 0#5) ∨ (s.fsm = .run ∧ s.clockNow = true))

/-- 10_state.md R26, R27, R28: what writes PHASE, FIN, CFG_N and CFG_DW, without reset. -/
def Obligations.ConfigurationWriters : Prop :=
  ∀ s t : State, step s = .next t → s.resetNow = false →
    (t.cfgN ≠ s.cfgN ∨ t.cfgDw ≠ s.cfgDw → ∃ (dw : BitVec 4) (n : BitVec 3), s.acceptsNow (0#5 ++ n ++ dw ++ 1#4) ∧
      legalDw dw = true ∧ legalN n = true ∧ t.cfgN = n ∧ t.cfgDw = dw) ∧
    (t.phase ≠ s.phase → ∃ (dw : BitVec 4) (n : BitVec 3), s.acceptsNow (0#5 ++ n ++ dw ++ 1#4) ∧
      (t.phase = .configured ↔ legalDw dw = true ∧ legalN n = true)) ∧
    (t.fin ≠ s.fin →
      (t.fin = false ∧ ∃ (dw : BitVec 4) (n : BitVec 3), s.acceptsNow (0#5 ++ n ++ dw ++ 1#4)) ∨
      (t.fin = true ∧ s.acceptsNow 0x0003#16 ∧ s.phase = .configured))

/-- 10_state.md R32: ERR_STICKY is set by a completion whose status is not OK and cleared only by reset. -/
def Obligations.ErrorStickyUntilReset : Prop :=
  ∀ s t : State, step s = .next t →
    (s.resetNow = false → s.errSticky = true → t.errSticky = true) ∧
    (s.errSticky = false → t.errSticky = true → t.rspValid = true ∧ t.lastStatus ≠ .ok) ∧
    (s.clockNow = true → t.rspValid = true → t.lastStatus ≠ .ok → t.errSticky = true) ∧
    (s.resetNow = true → t.errSticky = false)

/-- Every step answers a next state: no fault and no refusal exists (60 R277, 43 R216). -/
def Obligations.EveryStepAnswersNextState : Prop :=
  ∀ s : State, ∃ t, step s = .next t

/-- The control invariant (10_state.md R27, R28, R29, R30, R32, R33) is kept by every step, from every state that has
it. -/
def Obligations.ControlInvariantKept : Prop :=
  ∀ s t : State, ControlInv s → step s = .next t → ControlInv t

/-- While FIN = 1, D stays the zero-filled digest of H (43 R212), from every state with both invariants. -/
def Obligations.DigestInvariantKept : Prop :=
  ∀ s t : State, ControlInv s → DigestInv s → step s = .next t → DigestInv t

/-- While a COMPRESS runs, W is the window after the steps done so far from H on M (43 R203, R206, R207), from every
state with both invariants. -/
def Obligations.WindowInvariantKept : Prop :=
  ∀ s t : State, ControlInv s → WindowInv s → step s = .next t → WindowInv t

/-- The three invariants hold after reset. -/
def Obligations.InvariantsHoldAtReset : Prop :=
  ControlInv State.reset ∧ DigestInv State.reset ∧ WindowInv State.reset

/-- The whole COMPRESS: from the edge that accepts it, if the next 32n + 1 steps are clock edges without reset, the
feed-forward edge e(32n + 1) leaves the H of the transaction form, status OK, one response, and every register that
COMPRESS does not own as it was (43 R209, R215; 70 R312, R315). That the output wires of the units driven alone are as before
is the model's choice (log 6). -/
def Obligations.CompressRunsToTransactionResult : Prop :=
  ∀ (s : State) (any : AnyValue) (blk : Vec32 Word) (rest : List Event),
    s.fsm = .idle → compressStarts s → 3 ≤ s.cfgN.toNat → s.cfgN.toNat ≤ 5 →
    s.inputs = .edge false true 0x0002#16 blk :: rest →
    (rest.take (32 * s.cfgN.toNat + 1)).all Event.plainEdge = true →
    ∃ t : State, Sys2Proof.core.run (32 * s.cfgN.toNat + 2) s = .next t ∧
      t.H = compressTransaction any s.cfgN s.H blk ∧ t.M = blk ∧
      t.fsm = .idle ∧ t.lastStatus = .ok ∧ t.rspValid = true ∧ t.errSticky = s.errSticky ∧
      t.D = s.D ∧ t.cfgN = s.cfgN ∧ t.cfgDw = s.cfgDw ∧ t.phase = s.phase ∧ t.fin = s.fin ∧
      t.inputs = rest.drop (32 * s.cfgN.toNat + 1) ∧ t.muxOut = s.muxOut ∧ t.tailorOut = s.tailorOut ∧
      t.romOut = s.romOut

/-- 70 R315, R322: at every edge of a COMPRESS before its feed-forward edge, the core is not ready, shows no response, and
H, and so `state_out`, is the chaining state from before. -/
def Obligations.CompressIsBusyUntilFeedForward : Prop :=
  ∀ (s : State) (blk : Vec32 Word) (rest : List Event) (j : Nat),
    s.fsm = .idle → compressStarts s → 3 ≤ s.cfgN.toNat → s.cfgN.toNat ≤ 5 →
    s.inputs = .edge false true 0x0002#16 blk :: rest → j ≤ 32 * s.cfgN.toNat →
    (rest.take j).all Event.plainEdge = true →
    ∃ t : State, Sys2Proof.core.run (j + 1) s = .next t ∧ cmdReady false t = false ∧ rspValidPort t = false ∧
      t.fsm.busy = true ∧ t.H = s.H ∧ stateOutPort t = s.H ∧ (t.fsm = .ff ↔ j = 32 * s.cfgN.toNat)

/-- 43 R214: the H a COMPRESS writes is a function of H, the block and CFG_N only: two states that agree on those, and
on nothing else, end with the same H. -/
def Obligations.CompressDependsOnStateBlockAndPasses : Prop :=
  ∀ (s s' : State) (blk : Vec32 Word) (rest rest' : List Event),
    s.fsm = .idle → s'.fsm = .idle → compressStarts s → compressStarts s' →
    3 ≤ s.cfgN.toNat → s.cfgN.toNat ≤ 5 → s'.cfgN = s.cfgN → s'.H = s.H →
    s.inputs = .edge false true 0x0002#16 blk :: rest → s'.inputs = .edge false true 0x0002#16 blk :: rest' →
    (rest.take (32 * s.cfgN.toNat + 1)).all Event.plainEdge = true →
    (rest'.take (32 * s.cfgN.toNat + 1)).all Event.plainEdge = true →
    ∃ t t' : State, Sys2Proof.core.run (32 * s.cfgN.toNat + 2) s = .next t ∧
      Sys2Proof.core.run (32 * s.cfgN.toNat + 2) s' = .next t' ∧ t.H = t'.H ∧ t.W = t'.W

/-- 41 R145: the index form and the shift register agree at every step, and register for register at every pass
boundary. -/
def Obligations.IndexFormEqualsShiftForm : Prop :=
  ∀ (any : AnyValue) (n : BitVec 3) (M : Vec32 Word) (W : Vec8 Word),
    (∀ g, indexView (indexAfter any n M W g) g = windowAfter any n M W g) ∧
    (∀ p, indexAfter any n M W (32 * p) = windowAfter any n M W (32 * p))

/-- Decoding the encoding of every well-formed instruction gives it back, with every operand bit. -/
def Obligations.DecodeOfEncodeIsSame : Prop :=
  ∀ i : Instr, i.wf = true → decode (encode i) = i

/-- Every word on every set of wires decodes to a well-formed instruction whose encoding is that word (30 R85): no two
words share an instruction. -/
def Obligations.EncodeOfDecodeIsSame : Prop :=
  ∀ pw : PortWord, (decode pw).wf = true ∧ encode (decode pw) = pw

/-- Words written out from 30_encoding.md R80 to R90 and the instructions they stand for. -/
def Obligations.WrittenWordsDecode : Prop :=
  decode (.cmd 0b0000000000000000#16) = .nop ∧
  decode (.cmd 0b0000001101000001#16) = .init 4#4 3#3 ∧
  decode (.cmd 0b0000010110000001#16) = .init 8#4 5#3 ∧
  decode (.cmd 0b0000000000000010#16) = .compress ∧
  decode (.cmd 0b0000000000000011#16) = .finalize ∧
  decode (.cmd 0b0000100001000001#16) = .illegalReservedBits 0b000010000100#12 1#2 ∧
  decode (.cmd 0b1111111111111111#16) = .reservedOpc8toF 0xFFF#12 7#3 ∧
  decode (.cmd 0b0000000000000111#16) = .reservedOpc4to7 0#12 3#2 ∧
  decode (.fsel 0b101#3) = .f5 ∧ decode (.fsel 0b111#3) = .fselReserved6 1#1 ∧
  decode (.dw 0b0110#4) = .tailorDw6 ∧ decode (.dw 0b1001#4) = .tailorDwOther 9#4 ∧
  decode (.romAddr 0b10110111111#11) = .romRead 5#3 5#3 31#5

/-- 30_encoding.md R85: the decoder on every command word, by the word's fields as numbers. -/
def Obligations.CommandDecoderIsTotal : Prop :=
  ∀ w : BitVec 16,
    let opc := w.toNat % 16
    let rest := BitVec.ofNat 12 (w.toNat / 16)
    decode (.cmd w) =
      if opc = 1 then
        if 2048 ≤ w.toNat then .illegalReservedBits rest 1#2
        else .init (BitVec.ofNat 4 (w.toNat / 16 % 16)) (BitVec.ofNat 3 (w.toNat / 256 % 8))
      else if opc ≤ 3 then
        if 16 ≤ w.toNat then .illegalReservedBits rest (BitVec.ofNat 2 opc)
        else if opc = 0 then .nop else if opc = 2 then .compress else .finalize
      else if opc ≤ 7 then .reservedOpc4to7 rest (BitVec.ofNat 2 (opc - 4))
      else .reservedOpc8toF rest (BitVec.ofNat 3 (opc - 8))

/-- 10_state.md R34: `status_out` field by field; the CFG fields are any value when PHASE = 0 (log 8). -/
def Obligations.StatusOutPacksControlRegisters : Prop :=
  ∀ s : State,
    let v := statusOutPort s
    v.getLsbD 0 = decide (s.phase = .configured) ∧ v.getLsbD 1 = decide (s.fsm ≠ .idle) ∧ v.getLsbD 2 = s.fin ∧
      v.getLsbD 3 = s.errSticky ∧ v.extractLsb' 4 3 = s.lastStatus.code ∧ v.getLsbD 7 = false ∧
      (s.phase = .configured → v.extractLsb' 8 4 = s.cfgDw ∧ v.extractLsb' 12 3 = s.cfgN) ∧ v.getLsbD 15 = false

/-- 10_state.md R36: the ports; `state_out` and `digest_out` are any value when PHASE = 0 and FIN = 0 (log 8). -/
def Obligations.OutputPortsShowRegisters : Prop :=
  ∀ (s : State) (rst : Bool),
    (cmdReady rst s = true ↔ s.fsm = .idle ∧ rst = false) ∧ rspValidPort s = s.rspValid ∧
      rspStatusPort s = s.lastStatus.code ∧ (s.phase = .configured → stateOutPort s = s.H) ∧
      digestValidPort s = s.fin ∧ (s.fin = true → (digestLenPort s).toNat = 4 * s.cfgDw.toNat) ∧
      (s.fin = false → digestLenPort s = 0#6) ∧ (s.fin = true → digestOutPort s = s.D)

/-- 20_memory.md R62 (and the mixed-width view of R64): with FIN = 1, byte 4i + k of `digest_bytes` is bits 8k+7..8k of
D[i], the four bytes of a word, put together little-endian, are the word, and in a state with the digest
invariant (`DigestInvariantKept`) the bytes from 4 * CFG_DW on are 0. -/
def Obligations.DigestBytesAreLittleEndian : Prop :=
  ∀ (s : State) (i : Fin 8), s.fin = true →
    (DigestInv s → ∀ b : Fin 32, 4 * s.cfgDw.toNat ≤ b.val → digestBytePort s b = 0) ∧
    (∀ k : Fin 4, digestBytePort s ⟨4 * i.val + k.val, by omega⟩ = (s.D.get i).extractLsb' (8 * k.val) 8) ∧
    wordOfBytes (digestBytePort s ⟨4 * i.val, by omega⟩) (digestBytePort s ⟨4 * i.val + 1, by omega⟩)
      (digestBytePort s ⟨4 * i.val + 2, by omega⟩) (digestBytePort s ⟨4 * i.val + 3, by omega⟩) = s.D.get i

/-- 60 R270: the five status codes, and that no two statuses share one. -/
def Obligations.StatusCodesAreDistinct : Prop :=
  Status.ok.code = 0#3 ∧ Status.configError.code = 1#3 ∧ Status.notConfigured.code = 2#3 ∧
    Status.illegalCmd.code = 3#3 ∧ Status.finalized.code = 4#3 ∧
    (∀ a b : Status, a.code = b.code → a = b) ∧ ∀ a : Status, a.isError = true ↔ a ≠ .ok

/-- 30_encoding.md R91, R92 and R86: every line of the assembly is one edge. NOP, INIT (with n < 8 and dw < 16), COMPRESS
and FINALIZE are the command word of their operation, `.word` is the word it gives, and `.reset` is an edge with `rst = 1`
and no command. A line as data and not as text is the model's choice (log 15). -/
def Obligations.AssembledLinesDecode : Prop :=
  ∀ (blk0 blk : Vec32 Word) (dw n : Nat) (raw : BitVec 16), dw < 16 → n < 8 →
    (∃ w, AsmLine.event blk0 (.init dw n) = .edge false true w blk0 ∧
      decode (.cmd w) = .init (BitVec.ofNat 4 dw) (BitVec.ofNat 3 n)) ∧
    (∃ w, AsmLine.event blk0 .nop = .edge false true w blk0 ∧ decode (.cmd w) = .nop) ∧
    (∃ w, AsmLine.event blk0 (.compress blk) = .edge false true w blk ∧ decode (.cmd w) = .compress) ∧
    (∃ w, AsmLine.event blk0 .finalize = .edge false true w blk0 ∧ decode (.cmd w) = .finalize) ∧
    AsmLine.event blk0 (.word raw) = .edge false true raw blk0 ∧
    (∃ w, AsmLine.event blk0 .reset = .edge true false w blk0)
end

