-- ==== Sys2Proof/Laws/Vec.lean ====
section
/-! SUPPORT. The laws of the fixed groups: entry of a tabulation, and equality entry by entry. -/

namespace Sys2Proof

@[simp] theorem Vec7.get_tabulate {α : Type} (f : Fin 7 → α) (i : Fin 7) : (Vec7.tabulate f).get i = f i := by
  fin_cases i <;> rfl

@[simp] theorem Vec8.get_tabulate {α : Type} (f : Fin 8 → α) (i : Fin 8) : (Vec8.tabulate f).get i = f i := by
  fin_cases i <;> rfl

@[simp] theorem Vec32.get_tabulate {α : Type} (f : Fin 32 → α) (k : Fin 32) : (Vec32.tabulate f).get k = f k := by
  fin_cases k <;> rfl

theorem Vec7.ext_get {α : Type} {v w : Vec7 α} (h : ∀ i, v.get i = w.get i) : v = w := by
  cases v; cases w
  simp only [Vec7.mk.injEq]
  exact ⟨h 0, h 1, h 2, h 3, h 4, h 5, h 6⟩

theorem Vec8.ext_get {α : Type} {v w : Vec8 α} (h : ∀ i, v.get i = w.get i) : v = w := by
  cases v; cases w
  simp only [Vec8.mk.injEq]
  exact ⟨h 0, h 1, h 2, h 3, h 4, h 5, h 6, h 7⟩

theorem Vec8.get_set {α : Type} (v : Vec8 α) (i j : Fin 8) (x : α) :
    (v.set i x).get j = if j = i then x else v.get j := by
  simp [Vec8.set]

/-- A tabulation is the same group when its entries are. -/
theorem Vec7.tabulate_congr {α : Type} {f g : Fin 7 → α} (h : ∀ i, f i = g i) : Vec7.tabulate f = Vec7.tabulate g := by
  simp only [Vec7.tabulate, h]

theorem Vec8.tabulate_congr {α : Type} {f g : Fin 8 → α} (h : ∀ i, f i = g i) : Vec8.tabulate f = Vec8.tabulate g := by
  simp only [Vec8.tabulate, h]

end Sys2Proof
end

