-- ==== Sys2Proof/Laws/Datapath.lean ====
section
/-! SUPPORT. Where no open value reaches: at a valid ROM address (30_encoding.md R90) the ROM, the crossbar, the mux and
so the whole step do not depend on the supply of open values; nor does the tailor at a legal digest length. -/

namespace Sys2Proof.Machine

/-- What a valid ROM address is, as numbers. -/
theorem validRomAddr_iff (n p : BitVec 3) :
    validRomAddr n p = true ↔ 3 ≤ n.toNat ∧ n.toNat ≤ 5 ∧ 1 ≤ p.toNat ∧ p.toNat ≤ n.toNat := by
  simp [validRomAddr, legalN, and_assoc]

/-- The pass counts and pass indices that are a valid address, one by one. -/
theorem validRomAddr_cases {n p : BitVec 3} (h : validRomAddr n p = true) :
    (n = 3#3 ∨ n = 4#3 ∨ n = 5#3) ∧ (p = 1#3 ∨ p = 2#3 ∨ p = 3#3 ∨ p = 4#3 ∨ p = 5#3) := by
  revert h; revert n p; decide

theorem romRead_valid (any : AnyValue) {n p : BitVec 3} (h : validRomAddr n p = true) (s : BitVec 5) :
    romRead any n p s = { fsel := p, phi := phiRow any n p, widx := ordAt any p s, rc := kAt any p s } := by
  simp [romRead, h]

theorem phiRow_any (any any' : AnyValue) {n p : BitVec 3} (h : validRomAddr n p = true) :
    phiRow any n p = phiRow any' n p := by
  obtain ⟨rfl | rfl | rfl, rfl | rfl | rfl | rfl | rfl⟩ := validRomAddr_cases h <;>
    first | rfl | exact absurd h (by decide)

theorem romRead_any (any any' : AnyValue) {n p : BitVec 3} (h : validRomAddr n p = true) (s : BitVec 5) :
    romRead any n p s = romRead any' n p s := by
  rw [romRead_valid any h, romRead_valid any' h, phiRow_any any any' h]
  obtain ⟨-, rfl | rfl | rfl | rfl | rfl⟩ := validRomAddr_cases h <;> rfl

/-- No selector of a valid pass is the reserved code 7 (42_pass_schedule_rom.md R162, R168). -/
theorem phiRow_ne_seven (any : AnyValue) {n p : BitVec 3} (h : validRomAddr n p = true) (k : Fin 7) :
    (phiRow any n p).get k ≠ 7#3 := by
  rw [phiRow_any any (fun _ => 0) h]
  revert h k
  revert n p
  decide

theorem selected_of_ne_seven (any : AnyValue) (W : Vec8 Word) (k : Fin 7) {sel : BitVec 3} (h : sel ≠ 7#3) :
    selected any W k sel = W.get sel.toFin := by
  simp [selected, h]

theorem permutedView_valid (any : AnyValue) {n p : BitVec 3} (h : validRomAddr n p = true) (W : Vec8 Word) :
    permutedView any (phiRow any n p) W = .tabulate fun k => W.get ((phiRow any n p).get k).toFin :=
  Vec7.tabulate_congr fun k => selected_of_ne_seven any W k (phiRow_ne_seven any h k)

theorem boolMux_any (any any' : AnyValue) {n p : BitVec 3} (h : validRomAddr n p = true) (a : Vec7 Word) :
    boolMux any p a = boolMux any' p a := by
  obtain ⟨-, rfl | rfl | rfl | rfl | rfl⟩ := validRomAddr_cases h <;> rfl

/-- The new word at a valid address, written out without open values (41_step_transform.md R140 to R143). -/
theorem newWord_valid (any : AnyValue) {n p : BitVec 3} (h : validRomAddr n p = true) (s : BitVec 5) (W : Vec8 Word)
    (M : Vec32 Word) :
    newWord any (romRead any n p s) W M =
      rotr (boolMux any p (.tabulate fun k => W.get ((phiRow any n p).get k).toFin)) 7 + rotr W.e7 11 +
        M.get (ordAt any p s).toFin + kAt any p s := by
  rw [romRead_valid any h]
  simp only [newWord, permutedView_valid any h]

theorem newWord_any (any any' : AnyValue) {n p : BitVec 3} (h : validRomAddr n p = true) (s : BitVec 5)
    (W : Vec8 Word) (M : Vec32 Word) :
    newWord any (romRead any n p s) W M = newWord any' (romRead any' n p s) W M := by
  rw [newWord_valid any h, newWord_valid any' h, phiRow_any any any' h, boolMux_any any any' h]
  obtain ⟨-, rfl | rfl | rfl | rfl | rfl⟩ := validRomAddr_cases h <;> rfl

theorem stepWindow_any (any any' : AnyValue) {n p : BitVec 3} (h : validRomAddr n p = true) (s : BitVec 5)
    (W : Vec8 Word) (M : Vec32 Word) : stepWindow any n p s W M = stepWindow any' n p s W M := by
  rw [stepWindow, stepWindow, newWord_any any any' h]

/-- Global step g of a COMPRESS with a legal pass count n reads the ROM at a valid address. -/
theorem validRomAddr_of_step {n : BitVec 3} (h3 : 3 ≤ n.toNat) (h5 : n.toNat ≤ 5) {g : Nat} (hg : g < 32 * n.toNat) :
    validRomAddr n (BitVec.ofNat 3 (g / 32 + 1)) = true := by
  rw [validRomAddr_iff, BitVec.toNat_ofNat]
  omega

theorem windowAfter_any (any any' : AnyValue) {n : BitVec 3} (h3 : 3 ≤ n.toNat) (h5 : n.toNat ≤ 5) (M : Vec32 Word)
    (W : Vec8 Word) : ∀ g, g ≤ 32 * n.toNat → windowAfter any n M W g = windowAfter any' n M W g
  | 0, _ => rfl
  | g + 1, hg => by
    rw [windowAfter, windowAfter, windowAfter_any any any' h3 h5 M W g (by omega),
      stepWindow_any any any' (validRomAddr_of_step h3 h5 (by omega))]

/-- The digest lengths 4..8, one by one. -/
theorem legalDw_cases {dw : BitVec 4} (h4 : 4 ≤ dw.toNat) (h8 : dw.toNat ≤ 8) :
    dw = 4#4 ∨ dw = 5#4 ∨ dw = 6#4 ∨ dw = 7#4 ∨ dw = 8#4 := by
  revert h4 h8; revert dw; decide

theorem tailor_any (any any' : AnyValue) {dw : BitVec 4} (h4 : 4 ≤ dw.toNat) (h8 : dw.toNat ≤ 8) (h : Vec8 Word) :
    tailor any dw h = tailor any' dw h := by
  obtain rfl | rfl | rfl | rfl | rfl := legalDw_cases h4 h8 <;> rfl

theorem latchedDigest_any (any any' : AnyValue) {dw : BitVec 4} (h4 : 4 ≤ dw.toNat) (h8 : dw.toNat ≤ 8)
    (h : Vec8 Word) : latchedDigest any dw h = latchedDigest any' dw h := by
  rw [latchedDigest, latchedDigest, tailor_any any any' h4 h8]

theorem legalN_iff (n : BitVec 3) : legalN n = true ↔ 3 ≤ n.toNat ∧ n.toNat ≤ 5 := by
  simp [legalN]

theorem legalDw_iff (dw : BitVec 4) : legalDw dw = true ↔ 4 ≤ dw.toNat ∧ dw.toNat ≤ 8 := by
  simp [legalDw]

theorem get_addWords (a b : Vec8 Word) (i : Fin 8) : (addWords a b).get i = a.get i + b.get i := by
  simp [addWords]

end Sys2Proof.Machine
end

