-- ==== Sys2Proof/Laws/State.lean ====
section
/-! SUPPORT. One lemma per field per update: what each shared operation on the state leaves in each field. -/

namespace Sys2Proof.Machine

@[simp] theorem complete_H (st : Status) (s : State) : (complete st s).H = s.H := rfl
@[simp] theorem complete_W (st : Status) (s : State) : (complete st s).W = s.W := rfl
@[simp] theorem complete_M (st : Status) (s : State) : (complete st s).M = s.M := rfl
@[simp] theorem complete_D (st : Status) (s : State) : (complete st s).D = s.D := rfl
@[simp] theorem complete_cfgN (st : Status) (s : State) : (complete st s).cfgN = s.cfgN := rfl
@[simp] theorem complete_cfgDw (st : Status) (s : State) : (complete st s).cfgDw = s.cfgDw := rfl
@[simp] theorem complete_phase (st : Status) (s : State) : (complete st s).phase = s.phase := rfl
@[simp] theorem complete_fin (st : Status) (s : State) : (complete st s).fin = s.fin := rfl
@[simp] theorem complete_fsm (st : Status) (s : State) : (complete st s).fsm = s.fsm := rfl
@[simp] theorem complete_P (st : Status) (s : State) : (complete st s).P = s.P := rfl
@[simp] theorem complete_S (st : Status) (s : State) : (complete st s).S = s.S := rfl
@[simp] theorem complete_lastStatus (st : Status) (s : State) : (complete st s).lastStatus = st := rfl
@[simp] theorem complete_errSticky (st : Status) (s : State) : (complete st s).errSticky = (s.errSticky || st.isError) := rfl
@[simp] theorem complete_rspValid (st : Status) (s : State) : (complete st s).rspValid = true := rfl
@[simp] theorem complete_blkPort (st : Status) (s : State) : (complete st s).blkPort = s.blkPort := rfl
@[simp] theorem complete_inputs (st : Status) (s : State) : (complete st s).inputs = s.inputs := rfl
@[simp] theorem complete_muxIn (st : Status) (s : State) : (complete st s).muxIn = s.muxIn := rfl
@[simp] theorem complete_muxOut (st : Status) (s : State) : (complete st s).muxOut = s.muxOut := rfl
@[simp] theorem complete_tailorIn (st : Status) (s : State) : (complete st s).tailorIn = s.tailorIn := rfl
@[simp] theorem complete_tailorOut (st : Status) (s : State) : (complete st s).tailorOut = s.tailorOut := rfl
@[simp] theorem complete_romOut (st : Status) (s : State) : (complete st s).romOut = s.romOut := rfl
@[simp] theorem complete_draws (st : Status) (s : State) : (complete st s).draws = s.draws := rfl

@[simp] theorem reject_H (st : Status) (s : State) : (reject st s).H = s.H := rfl
@[simp] theorem reject_W (st : Status) (s : State) : (reject st s).W = s.W := rfl
@[simp] theorem reject_M (st : Status) (s : State) : (reject st s).M = s.M := rfl
@[simp] theorem reject_D (st : Status) (s : State) : (reject st s).D = s.D := rfl
@[simp] theorem reject_cfgN (st : Status) (s : State) : (reject st s).cfgN = s.cfgN := rfl
@[simp] theorem reject_cfgDw (st : Status) (s : State) : (reject st s).cfgDw = s.cfgDw := rfl
@[simp] theorem reject_phase (st : Status) (s : State) : (reject st s).phase = s.phase := rfl
@[simp] theorem reject_fin (st : Status) (s : State) : (reject st s).fin = s.fin := rfl
@[simp] theorem reject_fsm (st : Status) (s : State) : (reject st s).fsm = s.fsm := rfl
@[simp] theorem reject_P (st : Status) (s : State) : (reject st s).P = s.P := rfl
@[simp] theorem reject_S (st : Status) (s : State) : (reject st s).S = s.S := rfl
@[simp] theorem reject_lastStatus (st : Status) (s : State) : (reject st s).lastStatus = st := rfl
@[simp] theorem reject_errSticky (st : Status) (s : State) : (reject st s).errSticky = (s.errSticky || st.isError) := rfl
@[simp] theorem reject_rspValid (st : Status) (s : State) : (reject st s).rspValid = true := rfl
@[simp] theorem reject_blkPort (st : Status) (s : State) : (reject st s).blkPort = s.blkPort := rfl
@[simp] theorem reject_inputs (st : Status) (s : State) : (reject st s).inputs = s.inputs := rfl
@[simp] theorem reject_muxIn (st : Status) (s : State) : (reject st s).muxIn = s.muxIn := rfl
@[simp] theorem reject_muxOut (st : Status) (s : State) : (reject st s).muxOut = s.muxOut := rfl
@[simp] theorem reject_tailorIn (st : Status) (s : State) : (reject st s).tailorIn = s.tailorIn := rfl
@[simp] theorem reject_tailorOut (st : Status) (s : State) : (reject st s).tailorOut = s.tailorOut := rfl
@[simp] theorem reject_romOut (st : Status) (s : State) : (reject st s).romOut = s.romOut := rfl
@[simp] theorem reject_draws (st : Status) (s : State) : (reject st s).draws = s.draws := rfl

@[simp] theorem noResponse_H (s : State) : (noResponse s).H = s.H := rfl
@[simp] theorem noResponse_W (s : State) : (noResponse s).W = s.W := rfl
@[simp] theorem noResponse_M (s : State) : (noResponse s).M = s.M := rfl
@[simp] theorem noResponse_D (s : State) : (noResponse s).D = s.D := rfl
@[simp] theorem noResponse_cfgN (s : State) : (noResponse s).cfgN = s.cfgN := rfl
@[simp] theorem noResponse_cfgDw (s : State) : (noResponse s).cfgDw = s.cfgDw := rfl
@[simp] theorem noResponse_phase (s : State) : (noResponse s).phase = s.phase := rfl
@[simp] theorem noResponse_fin (s : State) : (noResponse s).fin = s.fin := rfl
@[simp] theorem noResponse_fsm (s : State) : (noResponse s).fsm = s.fsm := rfl
@[simp] theorem noResponse_P (s : State) : (noResponse s).P = s.P := rfl
@[simp] theorem noResponse_S (s : State) : (noResponse s).S = s.S := rfl
@[simp] theorem noResponse_lastStatus (s : State) : (noResponse s).lastStatus = s.lastStatus := rfl
@[simp] theorem noResponse_errSticky (s : State) : (noResponse s).errSticky = s.errSticky := rfl
@[simp] theorem noResponse_rspValid (s : State) : (noResponse s).rspValid = false := rfl
@[simp] theorem noResponse_blkPort (s : State) : (noResponse s).blkPort = s.blkPort := rfl
@[simp] theorem noResponse_inputs (s : State) : (noResponse s).inputs = s.inputs := rfl
@[simp] theorem noResponse_muxIn (s : State) : (noResponse s).muxIn = s.muxIn := rfl
@[simp] theorem noResponse_muxOut (s : State) : (noResponse s).muxOut = s.muxOut := rfl
@[simp] theorem noResponse_tailorIn (s : State) : (noResponse s).tailorIn = s.tailorIn := rfl
@[simp] theorem noResponse_tailorOut (s : State) : (noResponse s).tailorOut = s.tailorOut := rfl
@[simp] theorem noResponse_romOut (s : State) : (noResponse s).romOut = s.romOut := rfl
@[simp] theorem noResponse_draws (s : State) : (noResponse s).draws = s.draws := rfl

@[simp] theorem tick_H (s : State) : (tick s).H = s.H := rfl
@[simp] theorem tick_W (s : State) : (tick s).W = s.W := rfl
@[simp] theorem tick_M (s : State) : (tick s).M = s.M := rfl
@[simp] theorem tick_D (s : State) : (tick s).D = s.D := rfl
@[simp] theorem tick_cfgN (s : State) : (tick s).cfgN = s.cfgN := rfl
@[simp] theorem tick_cfgDw (s : State) : (tick s).cfgDw = s.cfgDw := rfl
@[simp] theorem tick_phase (s : State) : (tick s).phase = s.phase := rfl
@[simp] theorem tick_fin (s : State) : (tick s).fin = s.fin := rfl
@[simp] theorem tick_fsm (s : State) : (tick s).fsm = s.fsm := rfl
@[simp] theorem tick_P (s : State) : (tick s).P = s.P := rfl
@[simp] theorem tick_S (s : State) : (tick s).S = s.S := rfl
@[simp] theorem tick_lastStatus (s : State) : (tick s).lastStatus = s.lastStatus := rfl
@[simp] theorem tick_errSticky (s : State) : (tick s).errSticky = s.errSticky := rfl
@[simp] theorem tick_rspValid (s : State) : (tick s).rspValid = s.rspValid := rfl
@[simp] theorem tick_blkPort (s : State) : (tick s).blkPort = s.blkPort := rfl
@[simp] theorem tick_inputs (s : State) : (tick s).inputs = s.inputs := rfl
@[simp] theorem tick_muxIn (s : State) : (tick s).muxIn = s.muxIn := rfl
@[simp] theorem tick_muxOut (s : State) : (tick s).muxOut = s.muxOut := rfl
@[simp] theorem tick_tailorIn (s : State) : (tick s).tailorIn = s.tailorIn := rfl
@[simp] theorem tick_tailorOut (s : State) : (tick s).tailorOut = s.tailorOut := rfl
@[simp] theorem tick_romOut (s : State) : (tick s).romOut = s.romOut := rfl
@[simp] theorem tick_draws (s : State) : (tick s).draws = s.draws + 1 := rfl

@[simp] theorem afterDraw_H (s : State) : (afterDraw s).H = s.H := rfl
@[simp] theorem afterDraw_W (s : State) : (afterDraw s).W = s.W := rfl
@[simp] theorem afterDraw_M (s : State) : (afterDraw s).M = s.M := rfl
@[simp] theorem afterDraw_D (s : State) : (afterDraw s).D = s.D := rfl
@[simp] theorem afterDraw_cfgN (s : State) : (afterDraw s).cfgN = s.cfgN := rfl
@[simp] theorem afterDraw_cfgDw (s : State) : (afterDraw s).cfgDw = s.cfgDw := rfl
@[simp] theorem afterDraw_phase (s : State) : (afterDraw s).phase = s.phase := rfl
@[simp] theorem afterDraw_fin (s : State) : (afterDraw s).fin = s.fin := rfl
@[simp] theorem afterDraw_fsm (s : State) : (afterDraw s).fsm = s.fsm := rfl
@[simp] theorem afterDraw_P (s : State) : (afterDraw s).P = s.P := rfl
@[simp] theorem afterDraw_S (s : State) : (afterDraw s).S = s.S := rfl
@[simp] theorem afterDraw_lastStatus (s : State) : (afterDraw s).lastStatus = s.lastStatus := rfl
@[simp] theorem afterDraw_errSticky (s : State) : (afterDraw s).errSticky = s.errSticky := rfl
@[simp] theorem afterDraw_rspValid (s : State) : (afterDraw s).rspValid = s.rspValid := rfl
@[simp] theorem afterDraw_blkPort (s : State) : (afterDraw s).blkPort = s.blkPort := rfl
@[simp] theorem afterDraw_inputs (s : State) : (afterDraw s).inputs = s.inputs := rfl
@[simp] theorem afterDraw_muxIn (s : State) : (afterDraw s).muxIn = s.muxIn := rfl
@[simp] theorem afterDraw_muxOut (s : State) : (afterDraw s).muxOut = s.muxOut := rfl
@[simp] theorem afterDraw_tailorIn (s : State) : (afterDraw s).tailorIn = s.tailorIn := rfl
@[simp] theorem afterDraw_tailorOut (s : State) : (afterDraw s).tailorOut = s.tailorOut := rfl
@[simp] theorem afterDraw_romOut (s : State) : (afterDraw s).romOut = s.romOut := rfl
@[simp] theorem afterDraw_draws (s : State) : (afterDraw s).draws = s.draws + 1 := rfl

@[simp] theorem resetEdge_phase (s : State) : (resetEdge s).phase = .unconfigured := rfl
@[simp] theorem resetEdge_fin (s : State) : (resetEdge s).fin = false := rfl
@[simp] theorem resetEdge_fsm (s : State) : (resetEdge s).fsm = .idle := rfl
@[simp] theorem resetEdge_lastStatus (s : State) : (resetEdge s).lastStatus = .ok := rfl
@[simp] theorem resetEdge_errSticky (s : State) : (resetEdge s).errSticky = false := rfl
@[simp] theorem resetEdge_rspValid (s : State) : (resetEdge s).rspValid = false := rfl
@[simp] theorem resetEdge_blkPort (s : State) : (resetEdge s).blkPort = s.blkPort := rfl
@[simp] theorem resetEdge_inputs (s : State) : (resetEdge s).inputs = s.inputs := rfl
@[simp] theorem resetEdge_muxIn (s : State) : (resetEdge s).muxIn = s.muxIn := rfl
@[simp] theorem resetEdge_muxOut (s : State) : (resetEdge s).muxOut = s.muxOut := rfl
@[simp] theorem resetEdge_tailorIn (s : State) : (resetEdge s).tailorIn = s.tailorIn := rfl
@[simp] theorem resetEdge_tailorOut (s : State) : (resetEdge s).tailorOut = s.tailorOut := rfl
@[simp] theorem resetEdge_romOut (s : State) : (resetEdge s).romOut = s.romOut := rfl
@[simp] theorem resetEdge_draws (s : State) : (resetEdge s).draws = s.draws := rfl

@[simp] theorem startCompress_H (s : State) : (startCompress s).H = s.H := rfl
@[simp] theorem startCompress_W (s : State) : (startCompress s).W = s.H := rfl
@[simp] theorem startCompress_M (s : State) : (startCompress s).M = s.blkPort := rfl
@[simp] theorem startCompress_D (s : State) : (startCompress s).D = s.D := rfl
@[simp] theorem startCompress_cfgN (s : State) : (startCompress s).cfgN = s.cfgN := rfl
@[simp] theorem startCompress_cfgDw (s : State) : (startCompress s).cfgDw = s.cfgDw := rfl
@[simp] theorem startCompress_phase (s : State) : (startCompress s).phase = s.phase := rfl
@[simp] theorem startCompress_fin (s : State) : (startCompress s).fin = s.fin := rfl
@[simp] theorem startCompress_fsm (s : State) : (startCompress s).fsm = .run := rfl
@[simp] theorem startCompress_P (s : State) : (startCompress s).P = 1#3 := rfl
@[simp] theorem startCompress_S (s : State) : (startCompress s).S = 0#5 := rfl
@[simp] theorem startCompress_lastStatus (s : State) : (startCompress s).lastStatus = s.lastStatus := rfl
@[simp] theorem startCompress_errSticky (s : State) : (startCompress s).errSticky = s.errSticky := rfl
@[simp] theorem startCompress_rspValid (s : State) : (startCompress s).rspValid = false := rfl
@[simp] theorem startCompress_blkPort (s : State) : (startCompress s).blkPort = s.blkPort := rfl
@[simp] theorem startCompress_inputs (s : State) : (startCompress s).inputs = s.inputs := rfl
@[simp] theorem startCompress_muxIn (s : State) : (startCompress s).muxIn = s.muxIn := rfl
@[simp] theorem startCompress_muxOut (s : State) : (startCompress s).muxOut = s.muxOut := rfl
@[simp] theorem startCompress_tailorIn (s : State) : (startCompress s).tailorIn = s.tailorIn := rfl
@[simp] theorem startCompress_tailorOut (s : State) : (startCompress s).tailorOut = s.tailorOut := rfl
@[simp] theorem startCompress_romOut (s : State) : (startCompress s).romOut = s.romOut := rfl
@[simp] theorem startCompress_draws (s : State) : (startCompress s).draws = s.draws := rfl

@[simp] theorem feedForwardEdge_H (s : State) : (feedForwardEdge s).H = addWords s.H s.W := rfl
@[simp] theorem feedForwardEdge_W (s : State) : (feedForwardEdge s).W = s.W := rfl
@[simp] theorem feedForwardEdge_M (s : State) : (feedForwardEdge s).M = s.M := rfl
@[simp] theorem feedForwardEdge_D (s : State) : (feedForwardEdge s).D = s.D := rfl
@[simp] theorem feedForwardEdge_cfgN (s : State) : (feedForwardEdge s).cfgN = s.cfgN := rfl
@[simp] theorem feedForwardEdge_cfgDw (s : State) : (feedForwardEdge s).cfgDw = s.cfgDw := rfl
@[simp] theorem feedForwardEdge_phase (s : State) : (feedForwardEdge s).phase = s.phase := rfl
@[simp] theorem feedForwardEdge_fin (s : State) : (feedForwardEdge s).fin = s.fin := rfl
@[simp] theorem feedForwardEdge_fsm (s : State) : (feedForwardEdge s).fsm = .idle := rfl
@[simp] theorem feedForwardEdge_P (s : State) : (feedForwardEdge s).P = s.P := rfl
@[simp] theorem feedForwardEdge_S (s : State) : (feedForwardEdge s).S = s.S := rfl
@[simp] theorem feedForwardEdge_lastStatus (s : State) : (feedForwardEdge s).lastStatus = .ok := rfl
@[simp] theorem feedForwardEdge_errSticky (s : State) : (feedForwardEdge s).errSticky = (s.errSticky || false) := rfl
@[simp] theorem feedForwardEdge_rspValid (s : State) : (feedForwardEdge s).rspValid = true := rfl
@[simp] theorem feedForwardEdge_blkPort (s : State) : (feedForwardEdge s).blkPort = s.blkPort := rfl
@[simp] theorem feedForwardEdge_inputs (s : State) : (feedForwardEdge s).inputs = s.inputs := rfl
@[simp] theorem feedForwardEdge_muxIn (s : State) : (feedForwardEdge s).muxIn = s.muxIn := rfl
@[simp] theorem feedForwardEdge_muxOut (s : State) : (feedForwardEdge s).muxOut = s.muxOut := rfl
@[simp] theorem feedForwardEdge_tailorIn (s : State) : (feedForwardEdge s).tailorIn = s.tailorIn := rfl
@[simp] theorem feedForwardEdge_tailorOut (s : State) : (feedForwardEdge s).tailorOut = s.tailorOut := rfl
@[simp] theorem feedForwardEdge_romOut (s : State) : (feedForwardEdge s).romOut = s.romOut := rfl
@[simp] theorem feedForwardEdge_draws (s : State) : (feedForwardEdge s).draws = s.draws := rfl

@[simp] theorem quietEdge_H (s : State) : (quietEdge s).H = s.H := rfl
@[simp] theorem quietEdge_W (s : State) : (quietEdge s).W = s.W := rfl
@[simp] theorem quietEdge_M (s : State) : (quietEdge s).M = s.M := rfl
@[simp] theorem quietEdge_D (s : State) : (quietEdge s).D = s.D := rfl
@[simp] theorem quietEdge_cfgN (s : State) : (quietEdge s).cfgN = s.cfgN := rfl
@[simp] theorem quietEdge_cfgDw (s : State) : (quietEdge s).cfgDw = s.cfgDw := rfl
@[simp] theorem quietEdge_phase (s : State) : (quietEdge s).phase = s.phase := rfl
@[simp] theorem quietEdge_fin (s : State) : (quietEdge s).fin = s.fin := rfl
@[simp] theorem quietEdge_fsm (s : State) : (quietEdge s).fsm = s.fsm := rfl
@[simp] theorem quietEdge_P (s : State) : (quietEdge s).P = s.P := rfl
@[simp] theorem quietEdge_S (s : State) : (quietEdge s).S = s.S := rfl
@[simp] theorem quietEdge_lastStatus (s : State) : (quietEdge s).lastStatus = s.lastStatus := rfl
@[simp] theorem quietEdge_errSticky (s : State) : (quietEdge s).errSticky = s.errSticky := rfl
@[simp] theorem quietEdge_rspValid (s : State) : (quietEdge s).rspValid = false := rfl
@[simp] theorem quietEdge_blkPort (s : State) : (quietEdge s).blkPort = s.blkPort := rfl
@[simp] theorem quietEdge_inputs (s : State) : (quietEdge s).inputs = s.inputs := rfl
@[simp] theorem quietEdge_muxIn (s : State) : (quietEdge s).muxIn = s.muxIn := rfl
@[simp] theorem quietEdge_muxOut (s : State) : (quietEdge s).muxOut = s.muxOut := rfl
@[simp] theorem quietEdge_tailorIn (s : State) : (quietEdge s).tailorIn = s.tailorIn := rfl
@[simp] theorem quietEdge_tailorOut (s : State) : (quietEdge s).tailorOut = s.tailorOut := rfl
@[simp] theorem quietEdge_romOut (s : State) : (quietEdge s).romOut = s.romOut := rfl
@[simp] theorem quietEdge_draws (s : State) : (quietEdge s).draws = s.draws := rfl

/-- The advance of the step position changes P, S and FSM only. -/
theorem advance_eq (s : State) : advance s = { s with P := (advance s).P, S := (advance s).S, fsm := (advance s).fsm } := by
  unfold advance
  split
  · rfl
  · split <;> rfl

@[simp] theorem advance_H (s : State) : (advance s).H = s.H := by rw [advance_eq]
@[simp] theorem advance_W (s : State) : (advance s).W = s.W := by rw [advance_eq]
@[simp] theorem advance_M (s : State) : (advance s).M = s.M := by rw [advance_eq]
@[simp] theorem advance_D (s : State) : (advance s).D = s.D := by rw [advance_eq]
@[simp] theorem advance_cfgN (s : State) : (advance s).cfgN = s.cfgN := by rw [advance_eq]
@[simp] theorem advance_cfgDw (s : State) : (advance s).cfgDw = s.cfgDw := by rw [advance_eq]
@[simp] theorem advance_phase (s : State) : (advance s).phase = s.phase := by rw [advance_eq]
@[simp] theorem advance_fin (s : State) : (advance s).fin = s.fin := by rw [advance_eq]
@[simp] theorem advance_lastStatus (s : State) : (advance s).lastStatus = s.lastStatus := by rw [advance_eq]
@[simp] theorem advance_errSticky (s : State) : (advance s).errSticky = s.errSticky := by rw [advance_eq]
@[simp] theorem advance_rspValid (s : State) : (advance s).rspValid = s.rspValid := by rw [advance_eq]
@[simp] theorem advance_blkPort (s : State) : (advance s).blkPort = s.blkPort := by rw [advance_eq]
@[simp] theorem advance_inputs (s : State) : (advance s).inputs = s.inputs := by rw [advance_eq]
@[simp] theorem advance_muxIn (s : State) : (advance s).muxIn = s.muxIn := by rw [advance_eq]
@[simp] theorem advance_muxOut (s : State) : (advance s).muxOut = s.muxOut := by rw [advance_eq]
@[simp] theorem advance_tailorIn (s : State) : (advance s).tailorIn = s.tailorIn := by rw [advance_eq]
@[simp] theorem advance_tailorOut (s : State) : (advance s).tailorOut = s.tailorOut := by rw [advance_eq]
@[simp] theorem advance_romOut (s : State) : (advance s).romOut = s.romOut := by rw [advance_eq]
@[simp] theorem advance_draws (s : State) : (advance s).draws = s.draws := by rw [advance_eq]

@[simp] theorem stepEdge_H (s : State) : (stepEdge s).H = s.H := advance_H s
@[simp] theorem stepEdge_W (s : State) : (stepEdge s).W = stepWindow s.any s.cfgN s.P s.S s.W s.M := rfl
@[simp] theorem stepEdge_M (s : State) : (stepEdge s).M = s.M := advance_M s
@[simp] theorem stepEdge_D (s : State) : (stepEdge s).D = s.D := advance_D s
@[simp] theorem stepEdge_cfgN (s : State) : (stepEdge s).cfgN = s.cfgN := advance_cfgN s
@[simp] theorem stepEdge_cfgDw (s : State) : (stepEdge s).cfgDw = s.cfgDw := advance_cfgDw s
@[simp] theorem stepEdge_phase (s : State) : (stepEdge s).phase = s.phase := advance_phase s
@[simp] theorem stepEdge_fin (s : State) : (stepEdge s).fin = s.fin := advance_fin s
@[simp] theorem stepEdge_fsm (s : State) : (stepEdge s).fsm = (advance s).fsm := rfl
@[simp] theorem stepEdge_P (s : State) : (stepEdge s).P = (advance s).P := rfl
@[simp] theorem stepEdge_S (s : State) : (stepEdge s).S = (advance s).S := rfl
@[simp] theorem stepEdge_lastStatus (s : State) : (stepEdge s).lastStatus = s.lastStatus := advance_lastStatus s
@[simp] theorem stepEdge_errSticky (s : State) : (stepEdge s).errSticky = s.errSticky := advance_errSticky s
@[simp] theorem stepEdge_rspValid (s : State) : (stepEdge s).rspValid = false := rfl
@[simp] theorem stepEdge_blkPort (s : State) : (stepEdge s).blkPort = s.blkPort := advance_blkPort s
@[simp] theorem stepEdge_inputs (s : State) : (stepEdge s).inputs = s.inputs := advance_inputs s
@[simp] theorem stepEdge_muxIn (s : State) : (stepEdge s).muxIn = s.muxIn := advance_muxIn s
@[simp] theorem stepEdge_muxOut (s : State) : (stepEdge s).muxOut = s.muxOut := advance_muxOut s
@[simp] theorem stepEdge_tailorIn (s : State) : (stepEdge s).tailorIn = s.tailorIn := advance_tailorIn s
@[simp] theorem stepEdge_tailorOut (s : State) : (stepEdge s).tailorOut = s.tailorOut := advance_tailorOut s
@[simp] theorem stepEdge_romOut (s : State) : (stepEdge s).romOut = s.romOut := advance_romOut s
@[simp] theorem stepEdge_draws (s : State) : (stepEdge s).draws = s.draws := advance_draws s

end Sys2Proof.Machine
end

