-- ==== Sys2Proof/Laws/Step.lean ====
section
/-! SUPPORT. What a step can do, said once: which action the sequencer takes on which port event, and what each action
leaves. Later proofs cite these and do not unfold `step`. -/

namespace Sys2Proof.Machine

/-- The state with the ports sampled: the head of `inputs` consumed, its words on the ports, one draw counted. -/
def sampled (s : State) : State := (nextAction s).2

theorem sampled_nil {s : State} (h : s.inputs = []) : sampled s = tick s := by
  simp [sampled, nextAction, h]

theorem sampled_edge {s : State} {r v : Bool} {c : BitVec 16} {b : Vec32 Word} {rest : List Event}
    (h : s.inputs = .edge r v c b :: rest) : sampled s = tick { s with inputs := rest, blkPort := b } := by
  simp [sampled, nextAction, h]

theorem sampled_mux {s : State} {f : BitVec 3} {a : Vec7 Word} {rest : List Event} (h : s.inputs = .mux f a :: rest) :
    sampled s = tick { s with inputs := rest, muxIn := a } := by
  simp [sampled, nextAction, h]

theorem sampled_tailor {s : State} {d : BitVec 4} {x : Vec8 Word} {rest : List Event}
    (h : s.inputs = .tailor d x :: rest) : sampled s = tick { s with inputs := rest, tailorIn := x } := by
  simp [sampled, nextAction, h]

theorem sampled_rom {s : State} {a : BitVec 11} {rest : List Event} (h : s.inputs = .rom a :: rest) :
    sampled s = tick { s with inputs := rest } := by
  simp [sampled, nextAction, h]

/-- Sampling the ports changes no register of the core and no output wire of a unit. -/
theorem sampled_frame (s : State) :
    sampled s =
      { s with
        inputs := (sampled s).inputs
        blkPort := (sampled s).blkPort
        muxIn := (sampled s).muxIn
        tailorIn := (sampled s).tailorIn
        draws := s.draws + 1 } := by
  unfold sampled nextAction
  split <;> rfl

@[simp] theorem sampled_H (s : State) : (sampled s).H = s.H := by rw [sampled_frame]
@[simp] theorem sampled_W (s : State) : (sampled s).W = s.W := by rw [sampled_frame]
@[simp] theorem sampled_M (s : State) : (sampled s).M = s.M := by rw [sampled_frame]
@[simp] theorem sampled_D (s : State) : (sampled s).D = s.D := by rw [sampled_frame]
@[simp] theorem sampled_cfgN (s : State) : (sampled s).cfgN = s.cfgN := by rw [sampled_frame]
@[simp] theorem sampled_cfgDw (s : State) : (sampled s).cfgDw = s.cfgDw := by rw [sampled_frame]
@[simp] theorem sampled_phase (s : State) : (sampled s).phase = s.phase := by rw [sampled_frame]
@[simp] theorem sampled_fin (s : State) : (sampled s).fin = s.fin := by rw [sampled_frame]
@[simp] theorem sampled_fsm (s : State) : (sampled s).fsm = s.fsm := by rw [sampled_frame]
@[simp] theorem sampled_P (s : State) : (sampled s).P = s.P := by rw [sampled_frame]
@[simp] theorem sampled_S (s : State) : (sampled s).S = s.S := by rw [sampled_frame]
@[simp] theorem sampled_lastStatus (s : State) : (sampled s).lastStatus = s.lastStatus := by rw [sampled_frame]
@[simp] theorem sampled_errSticky (s : State) : (sampled s).errSticky = s.errSticky := by rw [sampled_frame]
@[simp] theorem sampled_rspValid (s : State) : (sampled s).rspValid = s.rspValid := by rw [sampled_frame]
@[simp] theorem sampled_muxOut (s : State) : (sampled s).muxOut = s.muxOut := by rw [sampled_frame]
@[simp] theorem sampled_tailorOut (s : State) : (sampled s).tailorOut = s.tailorOut := by rw [sampled_frame]
@[simp] theorem sampled_romOut (s : State) : (sampled s).romOut = s.romOut := by rw [sampled_frame]

/-- A step does the action the sequencer chose, on the sampled state. -/
theorem step_eq (s : State) :
    step s = match (nextAction s).1 with
      | .reset => .next (resetEdge (sampled s))
      | .runStep => .next (stepEdge (sampled s))
      | .feedForward => .next (feedForwardEdge (sampled s))
      | .accept i => exec i (sampled s)
      | .quiet => .next (quietEdge (sampled s)) := by
  unfold step sampled
  split <;> simp [*]

/-- The actions a step can take, each with what the ports carried: the inversion of `nextAction`. -/
theorem nextAction_cases (s : State) :
    ((nextAction s).1 = .reset ∧ s.resetNow = true) ∨
    ((nextAction s).1 = .runStep ∧ s.clockNow = true ∧ s.resetNow = false ∧ s.fsm = .run) ∨
    ((nextAction s).1 = .feedForward ∧ s.clockNow = true ∧ s.resetNow = false ∧ s.fsm = .ff) ∨
    ((nextAction s).1 = .quiet ∧ s.clockNow = true ∧ s.resetNow = false ∧ s.fsm = .idle ∧
      ∀ w, ¬ s.acceptsNow w) ∨
    (∃ w, (nextAction s).1 = .accept (decodeCommand w) ∧ s.clockNow = true ∧ s.resetNow = false ∧ s.acceptsNow w) ∨
    (∃ f a rest, (nextAction s).1 = .accept (decodeFsel f) ∧ s.clockNow = false ∧ s.resetNow = false ∧
      s.inputs = .mux f a :: rest) ∨
    (∃ d x rest, (nextAction s).1 = .accept (decodeDw d) ∧ s.clockNow = false ∧ s.resetNow = false ∧
      s.inputs = .tailor d x :: rest) ∨
    (∃ a rest, (nextAction s).1 = .accept (decodeRomAddr a) ∧ s.clockNow = false ∧ s.resetNow = false ∧
      s.inputs = .rom a :: rest) := by
  rcases hi : s.inputs with _ | ⟨e, rest⟩
  · rcases hf : s.fsm with _ | _ | _ <;>
      simp [nextAction, hi, hf, edgeAction, State.resetNow, State.clockNow, State.acceptsNow]
  · rcases e with ⟨r, v, c, b⟩ | ⟨f, a⟩ | ⟨d, x⟩ | a
    · rcases r with _ | _
      · rcases hf : s.fsm with _ | _ | _
        · rcases v with _ | _ <;>
            simp [nextAction, hi, hf, edgeAction, cmdReady, State.resetNow, State.clockNow, State.acceptsNow,
              Event.plainEdge, decode]
        · simp [nextAction, hi, hf, edgeAction, State.resetNow, State.clockNow, Event.plainEdge]
        · simp [nextAction, hi, hf, edgeAction, State.resetNow, State.clockNow, Event.plainEdge]
      · simp [nextAction, hi, edgeAction, State.resetNow]
    · simp [nextAction, hi, State.resetNow, State.clockNow, Event.plainEdge, decode]
    · simp [nextAction, hi, State.resetNow, State.clockNow, Event.plainEdge, decode]
    · simp [nextAction, hi, State.resetNow, State.clockNow, Event.plainEdge, decode]

end Sys2Proof.Machine
end

