-- ==== Sys2Proof/Laws/Exec.lean ====
section
/-! SUPPORT. What an accepted command word can do, and what the drive of a unit alone can do, said once; the later proofs
cite these and do not unfold the decoder and the meanings. -/

namespace Sys2Proof.Machine

/-- A command word is the concatenation of its fields (30_encoding.md R80). -/
theorem command_fields (w : BitVec 16) :
    w = w.extractLsb' 11 5 ++ w.extractLsb' 8 3 ++ w.extractLsb' 4 4 ++ w.extractLsb' 0 4 ∧
      w = w.extractLsb' 4 12 ++ w.extractLsb' 0 4 := by
  refine ⟨?_, ?_⟩ <;> ext i hi <;> grind

/-- What a command word decodes to (30_encoding.md R85), with the word that each legal command is. -/
theorem decodeCommand_cases (w : BitVec 16) :
    (w = 0x0000#16 ∧ decodeCommand w = .nop) ∨
    (∃ dw n, w = 0#5 ++ n ++ dw ++ 1#4 ∧ decodeCommand w = .init dw n) ∨
    (w = 0x0002#16 ∧ decodeCommand w = .compress) ∨
    (w = 0x0003#16 ∧ decodeCommand w = .finalize) ∨
    (∃ rest lo, decodeCommand w = .reservedOpc4to7 rest lo) ∨
    (∃ rest lo, decodeCommand w = .reservedOpc8toF rest lo) ∨
    (∃ rest opc, decodeCommand w = .illegalReservedBits rest opc) := by
  obtain ⟨h1, h2⟩ := command_fields w
  simp only [decodeCommand]
  generalize w.extractLsb' 11 5 = rsv at *
  generalize w.extractLsb' 8 3 = np at *
  generalize w.extractLsb' 4 4 = dw at *
  generalize w.extractLsb' 0 4 = opc at *
  generalize w.extractLsb' 4 12 = rest at *
  split_ifs with g1 g2 g3 g4 g5 g6 g7 g8 g9 <;> simp_all

/-- The INIT word of legal or illegal fields decodes to its INIT. -/
theorem decodeCommand_init (dw : BitVec 4) (n : BitVec 3) : decodeCommand (0#5 ++ n ++ dw ++ 1#4) = .init dw n := by
  revert dw n; decide

/-- The INIT word as a number: `0x0001 | dw << 4 | n << 8` (30_encoding.md R86). -/
theorem init_word_toNat (dw : BitVec 4) (n : BitVec 3) :
    (0#5 ++ n ++ dw ++ 1#4).toNat = 256 * n.toNat + 16 * dw.toNat + 1 := by
  revert dw n; decide

/-- A word with OPC 1 and no reserved bit is the INIT word of its fields (30_encoding.md R82). -/
theorem init_word_of_fields (w : BitVec 16) (h1 : w.toNat % 16 = 1) (h2 : w.toNat < 2048) :
    w = 0#5 ++ BitVec.ofNat 3 (w.toNat / 256 % 8) ++ BitVec.ofNat 4 (w.toNat / 16 % 16) ++ 1#4 := by
  apply BitVec.eq_of_toNat_eq
  rw [init_word_toNat, BitVec.toNat_ofNat, BitVec.toNat_ofNat]
  omega

/-- The words that decode to an illegal command, by their fields as numbers (30_encoding.md R83, R84). -/
theorem illegal_word_of_decode (w : BitVec 16)
    (h0 : decodeCommand w ≠ .nop) (h1 : ∀ dw n, decodeCommand w ≠ .init dw n) (h2 : decodeCommand w ≠ .compress)
    (h3 : decodeCommand w ≠ .finalize) :
    4 ≤ w.toNat % 16 ∨ (w.toNat % 16 = 1 ∧ 2048 ≤ w.toNat) ∨ (w.toNat % 16 ≠ 1 ∧ 16 ≤ w.toNat) := by
  by_contra hc
  have hv : w.toNat = 0 ∨ (w.toNat % 16 = 1 ∧ w.toNat < 2048) ∨ w.toNat = 2 ∨ w.toNat = 3 := by omega
  obtain hv | ⟨ho, hv⟩ | hv | hv := hv
  · rw [show w = 0x0000#16 from BitVec.eq_of_toNat_eq hv] at h0; exact h0 (by decide)
  · rw [init_word_of_fields w ho hv] at h1; exact h1 _ _ (decodeCommand_init _ _)
  · rw [show w = 0x0002#16 from BitVec.eq_of_toNat_eq hv] at h2; exact h2 (by decide)
  · rw [show w = 0x0003#16 from BitVec.eq_of_toNat_eq hv] at h3; exact h3 (by decide)

/-- Everything an accepted command word can do (43_compression_core.md R200 to R213). -/
theorem exec_command_cases (w : BitVec 16) (s : State) :
    (w = 0x0000#16 ∧ exec (decodeCommand w) s = .next (complete .ok s)) ∨
    (∃ dw n, w = 0#5 ++ n ++ dw ++ 1#4 ∧ legalDw dw = true ∧ legalN n = true ∧
      exec (decodeCommand w) s =
        .next (complete .ok { s with H := romIv, cfgN := n, cfgDw := dw, phase := .configured, fin := false })) ∨
    (∃ dw n, w = 0#5 ++ n ++ dw ++ 1#4 ∧ ¬ (legalDw dw = true ∧ legalN n = true) ∧
      exec (decodeCommand w) s = .next (reject .configError { s with phase := .unconfigured, fin := false })) ∨
    (w = 0x0002#16 ∧ s.phase = .unconfigured ∧ exec (decodeCommand w) s = .next (reject .notConfigured s)) ∨
    (w = 0x0002#16 ∧ s.phase = .configured ∧ s.fin = true ∧
      exec (decodeCommand w) s = .next (reject .finalized s)) ∨
    (w = 0x0002#16 ∧ s.phase = .configured ∧ s.fin = false ∧ exec (decodeCommand w) s = .next (startCompress s)) ∨
    (w = 0x0003#16 ∧ s.phase = .unconfigured ∧ exec (decodeCommand w) s = .next (reject .notConfigured s)) ∨
    (w = 0x0003#16 ∧ s.phase = .configured ∧ exec (decodeCommand w) s =
      .next (complete .ok { s with D := latchedDigest s.any s.cfgDw s.H, fin := true })) ∨
    (w ≠ 0x0002#16 ∧
      (4 ≤ w.toNat % 16 ∨ (w.toNat % 16 = 1 ∧ 2048 ≤ w.toNat) ∨ (w.toNat % 16 ≠ 1 ∧ 16 ≤ w.toNat)) ∧
      exec (decodeCommand w) s = .next (reject .illegalCmd s)) := by
  have h2 : decodeCommand 0x0002#16 = .compress := by decide
  obtain ⟨hw, hd⟩ | ⟨dw, n, hw, hd⟩ | ⟨hw, hd⟩ | ⟨hw, hd⟩ | ⟨r, o, hd⟩ | ⟨r, o, hd⟩ | ⟨r, o, hd⟩ := decodeCommand_cases w
  · exact .inl ⟨hw, by rw [hd]; rfl⟩
  · by_cases hl : legalDw dw = true ∧ legalN n = true
    · exact .inr (.inl ⟨dw, n, hw, hl.1, hl.2, by rw [hd]; simp [exec, execInit, hl.1, hl.2]⟩)
    · refine .inr (.inr (.inl ⟨dw, n, hw, hl, ?_⟩))
      rw [hd]
      simp only [exec, execInit, Bool.and_eq_true, hl, if_false]
  · cases hp : s.phase with
    | unconfigured => exact .inr (.inr (.inr (.inl ⟨hw, rfl, by rw [hd]; simp [exec, execCompress, hp]⟩)))
    | configured =>
      cases hf : s.fin with
      | true => exact .inr (.inr (.inr (.inr (.inl ⟨hw, rfl, rfl, by rw [hd]; simp [exec, execCompress, hp, hf]⟩))))
      | false =>
        exact .inr (.inr (.inr (.inr (.inr (.inl ⟨hw, rfl, rfl, by rw [hd]; simp [exec, execCompress, hp, hf]⟩)))))
  · cases hp : s.phase with
    | unconfigured =>
      exact .inr (.inr (.inr (.inr (.inr (.inr (.inl ⟨hw, rfl, by rw [hd]; simp [exec, execFinalize, hp]⟩))))))
    | configured =>
      exact .inr (.inr (.inr (.inr (.inr (.inr (.inr (.inl ⟨hw, rfl, by rw [hd]; simp [exec, execFinalize, hp]⟩)))))))
  all_goals
    have hill := illegal_word_of_decode w (by simp [hd]) (by simp [hd]) (by simp [hd]) (by simp [hd])
    refine .inr (.inr (.inr (.inr (.inr (.inr (.inr (.inr ⟨?_, hill, by rw [hd]; rfl⟩)))))))
    rintro rfl
    rw [h2] at hd
    cases hd

/-- The drive of the mux alone writes its output wire and the count of draws only. -/
theorem exec_fsel_cases (c : BitVec 3) (s : State) :
    ∃ v d, exec (decodeFsel c) s = .next { s with muxOut := v, draws := d } := by
  simp only [decodeFsel]
  split_ifs <;> exact ⟨_, _, rfl⟩

/-- The drive of the tailor alone writes its output wires and the count of draws only. -/
theorem exec_dw_cases (c : BitVec 4) (s : State) :
    ∃ v d, exec (decodeDw c) s = .next { s with tailorOut := v, draws := d } := by
  simp only [decodeDw]
  split_ifs <;> exact ⟨_, _, rfl⟩

/-- The drive of the ROM alone writes its output wires and the count of draws only. -/
theorem exec_romAddr_cases (c : BitVec 11) (s : State) :
    ∃ v d, exec (decodeRomAddr c) s = .next { s with romOut := v, draws := d } := by
  simp only [decodeRomAddr, exec, execRomRead]
  split <;> exact ⟨_, _, rfl⟩

/-- Everything a step can do: the inversion of `step`. -/
theorem step_cases {s t : State} (h : step s = .next t) :
    (s.resetNow = true ∧ s.clockNow = false ∧ t = resetEdge (sampled s)) ∨
    (s.clockNow = true ∧ s.resetNow = false ∧ s.fsm = .run ∧ t = stepEdge (sampled s)) ∨
    (s.clockNow = true ∧ s.resetNow = false ∧ s.fsm = .ff ∧ t = feedForwardEdge (sampled s)) ∨
    (s.clockNow = true ∧ s.resetNow = false ∧ s.fsm = .idle ∧ (∀ w, ¬ s.acceptsNow w) ∧
      t = quietEdge (sampled s)) ∨
    (∃ w, s.clockNow = true ∧ s.resetNow = false ∧ s.acceptsNow w ∧
      exec (decodeCommand w) (sampled s) = .next t) ∨
    (∃ mo tO ro d, s.clockNow = false ∧ s.resetNow = false ∧
      t = { sampled s with muxOut := mo, tailorOut := tO, romOut := ro, draws := d }) := by
  rw [step_eq] at h
  obtain ⟨ha, h1⟩ | ⟨ha, h1, h2, h3⟩ | ⟨ha, h1, h2, h3⟩ | ⟨ha, h1, h2, h3, h4⟩ | ⟨w, ha, h1, h2, h3⟩ |
    ⟨f, a, rest, ha, h1, h2, -⟩ | ⟨d, x, rest, ha, h1, h2, -⟩ | ⟨a, rest, ha, h1, h2, -⟩ := nextAction_cases s <;>
    rw [ha] at h
  · cases h
    refine .inl ⟨h1, ?_, rfl⟩
    revert h1
    rcases hi : s.inputs with _ | ⟨⟨_ | _⟩ | _ | _ | _, _⟩ <;>
      simp [State.resetNow, State.clockNow, hi, Event.plainEdge]
  · cases h; exact .inr (.inl ⟨h1, h2, h3, rfl⟩)
  · cases h; exact .inr (.inr (.inl ⟨h1, h2, h3, rfl⟩))
  · cases h; exact .inr (.inr (.inr (.inl ⟨h1, h2, h3, h4, rfl⟩)))
  · exact .inr (.inr (.inr (.inr (.inl ⟨w, h1, h2, h3, h⟩))))
  · obtain ⟨v, d, he⟩ := exec_fsel_cases f (sampled s)
    simp only [he, Host.Outcome.next.injEq] at h
    exact .inr (.inr (.inr (.inr (.inr ⟨_, _, _, d, h1, h2, h.symm⟩))))
  · obtain ⟨v, d', he⟩ := exec_dw_cases d (sampled s)
    simp only [he, Host.Outcome.next.injEq] at h
    exact .inr (.inr (.inr (.inr (.inr ⟨_, _, _, d', h1, h2, h.symm⟩))))
  · obtain ⟨v, d, he⟩ := exec_romAddr_cases a (sampled s)
    simp only [he, Host.Outcome.next.injEq] at h
    exact .inr (.inr (.inr (.inr (.inr ⟨_, _, _, d, h1, h2, h.symm⟩))))

end Sys2Proof.Machine
end

