-- ==== Sys2Proof/Laws/PerInstr.lean ====
section
/-! SUPPORT. Statements made once for each constructor of `Instr`. Family RoundTrip: decoding the encoding of a
well-formed instruction gives it back, every operand bit included. -/

namespace Sys2Proof.Laws.RoundTrip

/-- Decoding the encoding of `i` gives `i`, when `i` is well formed. -/
def Statement (i : Instr) : Prop := i.wf = true → decode (encode i) = i

theorem nop : Statement .nop := fun _ => by decide

theorem init (dw : BitVec 4) (n : BitVec 3) : Statement (.init dw n) := fun _ => by
  revert dw n; decide

theorem compress : Statement .compress := fun _ => by decide

theorem finalize : Statement .finalize := fun _ => by decide

/-- The fields of a command word built from twelve, two and two bits. -/
theorem fields_of_append (rest : BitVec 12) (hi lo : BitVec 2) :
    (rest ++ hi ++ lo : BitVec 16).extractLsb' 0 4 = hi ++ lo ∧
    (rest ++ hi ++ lo : BitVec 16).extractLsb' 4 12 = rest ∧
    (rest ++ hi ++ lo : BitVec 16).extractLsb' 11 5 = rest.extractLsb' 7 5 ∧
    (rest ++ hi ++ lo : BitVec 16).extractLsb' 3 1 = hi.extractLsb' 1 1 ∧
    (rest ++ hi ++ lo : BitVec 16).extractLsb' 0 2 = lo := by
  refine ⟨?_, ?_, ?_, ?_, ?_⟩ <;> ext i hi' <;> grind

/-- The fields of a command word built from twelve, one and three bits. -/
theorem fields_of_append3 (rest : BitVec 12) (hi : BitVec 1) (lo : BitVec 3) :
    (rest ++ hi ++ lo : BitVec 16).extractLsb' 0 4 = hi ++ lo ∧
    (rest ++ hi ++ lo : BitVec 16).extractLsb' 4 12 = rest ∧
    (rest ++ hi ++ lo : BitVec 16).extractLsb' 3 1 = hi ∧
    (rest ++ hi ++ lo : BitVec 16).extractLsb' 0 3 = lo := by
  refine ⟨?_, ?_, ?_, ?_⟩ <;> ext i hi' <;> grind

theorem two_bits (b : BitVec 2) : b = 0#2 ∨ b = 1#2 ∨ b = 2#2 ∨ b = 3#2 := by
  revert b; decide

/-- An opcode with its top bit set is none of the core's. -/
theorem high_opcode (b : BitVec 3) :
    (1#1 ++ b : BitVec 4) ≠ 0#4 ∧ (1#1 ++ b : BitVec 4) ≠ 1#4 ∧ (1#1 ++ b : BitVec 4) ≠ 2#4 ∧
      (1#1 ++ b : BitVec 4) ≠ 3#4 := by
  revert b; decide

theorem reservedOpc4to7 (rest : BitVec 12) (lo : BitVec 2) : Statement (.reservedOpc4to7 rest lo) := fun _ => by
  obtain ⟨h0, h1, -, h3, h4⟩ := fields_of_append rest 1#2 lo
  simp only [encode, decode, decodeCommand, h0, h1, h3, h4]
  obtain rfl | rfl | rfl | rfl := two_bits lo <;> simp

theorem reservedOpc8toF (rest : BitVec 12) (lo : BitVec 3) : Statement (.reservedOpc8toF rest lo) := fun _ => by
  obtain ⟨h0, h1, h3, h4⟩ := fields_of_append3 rest 1#1 lo
  obtain ⟨g0, g1, g2, g3⟩ := high_opcode lo
  simp [encode, decode, decodeCommand, h0, h1, h3, h4, g0, g1, g2, g3]

theorem illegalReservedBits (rest : BitVec 12) (opc : BitVec 2) : Statement (.illegalReservedBits rest opc) := by
  intro h
  obtain ⟨h0, h1, h2, h3, h4⟩ := fields_of_append rest 0#2 opc
  simp only [encode, decode, decodeCommand, h0, h1, h2, h3, h4]
  obtain rfl | rfl | rfl | rfl := two_bits opc <;> simp_all [Instr.wf]

theorem f1 : Statement .f1 := fun _ => by decide

theorem f2 : Statement .f2 := fun _ => by decide

theorem f3 : Statement .f3 := fun _ => by decide

theorem f4 : Statement .f4 := fun _ => by decide

theorem f5 : Statement .f5 := fun _ => by decide

theorem fselReserved : Statement .fselReserved := fun _ => by decide

theorem fselReserved6 (lo : BitVec 1) : Statement (.fselReserved6 lo) := fun _ => by
  revert lo; decide

theorem tailorDw8 : Statement .tailorDw8 := fun _ => by decide

theorem tailorDw7 : Statement .tailorDw7 := fun _ => by decide

theorem tailorDw6 : Statement .tailorDw6 := fun _ => by decide

theorem tailorDw5 : Statement .tailorDw5 := fun _ => by decide

theorem tailorDw4 : Statement .tailorDw4 := fun _ => by decide

theorem tailorDwOther (dw : BitVec 4) : Statement (.tailorDwOther dw) := by
  unfold Statement; revert dw; decide

theorem romRead (n p : BitVec 3) (s : BitVec 5) : Statement (.romRead n p s) := fun _ => by
  simp only [encode, decode, decodeRomAddr, Instr.romRead.injEq]
  refine ⟨?_, ?_, ?_⟩ <;> ext i hi <;> grind

end Sys2Proof.Laws.RoundTrip
end

