-- ==== Sys2Proof/Laws/Run.lean ====
section
/-! SUPPORT. Steps of a COMPRESS that runs, and runs of several steps put together. -/

namespace Sys2Proof.Machine

/-- At a clock edge without reset the head of the events is used up. -/
theorem sampled_inputs {s : State} (h : s.clockNow = true) : (sampled s).inputs = s.inputs.tail := by
  unfold State.clockNow at h
  rcases hi : s.inputs with _ | ⟨⟨r, v, c, b⟩ | _ | _ | _, rest⟩
  · rw [sampled_nil hi]; simp [hi]
  · rw [sampled_edge hi]; simp
  · simp [hi, Event.plainEdge] at h
  · simp [hi, Event.plainEdge] at h
  · simp [hi, Event.plainEdge] at h

/-- A clock edge without reset in RUN is a step edge (43_compression_core.md R206). -/
theorem step_of_run {s : State} (hc : s.clockNow = true) (hf : s.fsm = .run) :
    step s = .next (stepEdge (sampled s)) := by
  rw [step_eq]
  unfold State.clockNow at hc
  rcases hi : s.inputs with _ | ⟨⟨r, v, c, b⟩ | _ | _ | _, rest⟩ <;>
    simp_all [nextAction, edgeAction, Event.plainEdge]

/-- A clock edge without reset in FF is the feed-forward edge (43_compression_core.md R208). -/
theorem step_of_ff {s : State} (hc : s.clockNow = true) (hf : s.fsm = .ff) :
    step s = .next (feedForwardEdge (sampled s)) := by
  rw [step_eq]
  unfold State.clockNow at hc
  rcases hi : s.inputs with _ | ⟨⟨r, v, c, b⟩ | _ | _ | _, rest⟩ <;>
    simp_all [nextAction, edgeAction, Event.plainEdge]

/-- A run of one step is that step. -/
theorem run_one {s t : State} (h : step s = .next t) : Sys2Proof.core.run 1 s = .next t := by
  have h' : Sys2Proof.core.step s = .next t := h
  simp only [Host.Core.run, h']

/-- A run that answers a next state goes on from there. -/
theorem run_add (k j : Nat) (s t : State) (h : Sys2Proof.core.run k s = .next t) :
    Sys2Proof.core.run (k + j) s = Sys2Proof.core.run j t := by
  induction k generalizing s with
  | zero => cases h; simp
  | succ k ih =>
    rw [Nat.succ_add]
    simp only [Host.Core.run] at h ⊢
    cases hs : Sys2Proof.core.step s with
    | next u => rw [hs] at h; simp only at h ⊢; exact ih u h
    | fault r => rw [hs] at h; cases h
    | refused r => rw [hs] at h; cases h

end Sys2Proof.Machine
end

