-- ==== Sys2Proof/Tests/Slice0.lean ====
section
/-! SUPPORT. Tests, each on one step, with expected values from 95_test_vectors.md or from the spec's encodings; a smoke
test of WellFormed; and for every statement with hypotheses a witness that meets them. -/

namespace Sys2Proof.Tests

open Sys2Proof.Machine Sys2Proof.Claims

/-! ## Helpers -/

/-- Whether an outcome is a next state with a property. -/
def answers (o : Host.Outcome State Fault Refusal) (f : State → Bool) : Bool :=
  match o with
  | .next t => f t
  | .fault _ => false
  | .refused _ => false

def zeroBlk : Vec32 Word := .tabulate fun _ => 0

def configured : State := { State.reset with phase := .configured, cfgN := 3, cfgDw := 4, H := romIv }

def finalizedState : State :=
  { configured with fin := true, D := latchedDigest (fun _ => 0) 4 romIv }

/-- A COMPRESS just started at pass count n. -/
def running (n : BitVec 3) (p : BitVec 3) (k : BitVec 5) (W : Vec8 Word) (M : Vec32 Word) : State :=
  { configured with cfgN := n, fsm := .run, P := p, S := k, W := W, M := M }

def offering (w : BitVec 16) (s : State) : State := { s with inputs := [.edge false true w zeroBlk] }

def onMux (a : Vec7 Word) : State := { State.reset with muxIn := a }

def onTailor (h : Vec8 Word) : State := { State.reset with tailorIn := h }

/-! ## WellFormed: an ill-formed term for each check -/

theorem test_wf_illegal_init_needs_high_bit : (Instr.illegalReservedBits 0x07F#12 1#2).wf = false := by decide

theorem test_wf_illegal_others_need_a_bit :
    (Instr.illegalReservedBits 0#12 0#2).wf = false ∧ (Instr.illegalReservedBits 0#12 2#2).wf = false ∧
      (Instr.illegalReservedBits 0#12 3#2).wf = false := by decide

theorem test_wf_tailor_other_not_4_to_8 :
    (Instr.tailorDwOther 4#4).wf = false ∧ (Instr.tailorDwOther 8#4).wf = false ∧
      (Instr.tailorDwOther 3#4).wf = true ∧ (Instr.tailorDwOther 9#4).wf = true := by decide

/-! ## Decoding: every constructor by a word written out from its encoding -/

-- 30_encoding.md R80, R81: bits 15:11 RSV, 10:8 NP, 7:4 DW, 3:0 OPC
theorem test_decode_nop : decode (.cmd 0b00000_000_0000_0000#16) = .nop := by decide

theorem test_decode_init : decode (.cmd 0b00000_011_0100_0001#16) = .init 4#4 3#3 := by decide

theorem test_decode_init_illegal_fields : decode (.cmd 0b00000_111_1001_0001#16) = .init 9#4 7#3 := by decide

theorem test_decode_compress : decode (.cmd 0b00000_000_0000_0010#16) = .compress := by decide

theorem test_decode_finalize : decode (.cmd 0b00000_000_0000_0011#16) = .finalize := by decide

theorem test_decode_reserved4to7 :
    decode (.cmd 0b10000_000_0001_0110#16) = .reservedOpc4to7 0b100000000001#12 2#2 := by decide

theorem test_decode_reserved8toF :
    decode (.cmd 0b00000_001_0000_1011#16) = .reservedOpc8toF 0b000000010000#12 3#3 := by decide

theorem test_decode_illegal_bits :
    decode (.cmd 0x0010#16) = .illegalReservedBits 0x001#12 0#2 ∧
      decode (.cmd 0x0841#16) = .illegalReservedBits 0x084#12 1#2 ∧
      decode (.cmd 0x0102#16) = .illegalReservedBits 0x010#12 2#2 ∧
      decode (.cmd 0x8003#16) = .illegalReservedBits 0x800#12 3#2 := by decide

-- 30_encoding.md R87
theorem test_decode_fsel :
    decode (.fsel 0b000#3) = .fselReserved ∧ decode (.fsel 0b001#3) = .f1 ∧ decode (.fsel 0b010#3) = .f2 ∧
      decode (.fsel 0b011#3) = .f3 ∧ decode (.fsel 0b100#3) = .f4 ∧ decode (.fsel 0b101#3) = .f5 ∧
      decode (.fsel 0b110#3) = .fselReserved6 0#1 ∧ decode (.fsel 0b111#3) = .fselReserved6 1#1 := by decide

-- 30_encoding.md R89, 44_output_tailor.md R241 to R247
theorem test_decode_dw :
    decode (.dw 0b0100#4) = .tailorDw4 ∧ decode (.dw 0b0101#4) = .tailorDw5 ∧ decode (.dw 0b0110#4) = .tailorDw6 ∧
      decode (.dw 0b0111#4) = .tailorDw7 ∧ decode (.dw 0b1000#4) = .tailorDw8 ∧
      decode (.dw 0b0011#4) = .tailorDwOther 3#4 ∧ decode (.dw 0b1111#4) = .tailorDwOther 15#4 := by decide

-- 30_encoding.md R90; 95_test_vectors.md section 4, addresses 0x33F and 0x549
theorem test_decode_rom :
    decode (.romAddr 0b011_001_11111#11) = .romRead 3#3 1#3 31#5 ∧
      decode (.romAddr 0x549#11) = .romRead 5#3 2#3 9#5 := by decide

theorem test_table_words :
    decodeTableWord 16 0x0341 = some (.init 4#4 3#3) ∧ decodeTableWord 8 5 = some .f5 ∧
      decodeTableWord 8 8 = some .tailorDw8 ∧ decodeTableWord 4 5 = some .tailorDw5 ∧
      decodeTableWord 11 0x320 = some (.romRead 3#3 1#3 0#5) ∧ decodeTableWord 16 0x10000 = none ∧
      decodeTableWord 24 0 = none := by decide

theorem test_reject_by_name :
    portWord .fsel 8 = .error (.tooWide .fsel) ∧ tablePort 24 0 = .error (.noSuchWidth 24) := by
  exact ⟨rfl, rfl⟩

/-! ## Commands: 95_test_vectors.md section 7, one step each -/

theorem test_nop : answers (step (offering 0x0000#16 finalizedState))
    (fun t => t.lastStatus == .ok && t.rspValid && t.fin && t.phase == .configured) = true := by decide

theorem test_init_from_reset : answers (step (State.reset.withFetchWord 16 0x0581))
    (fun t => t.phase == .configured && t.cfgN == 5#3 && t.cfgDw == 8#4 && t.H == romIv && t.lastStatus == .ok) = true := by
  decide

theorem test_init_bad_clears_phase_and_fin : answers (step (offering 0x0391#16 finalizedState))
    (fun t => t.phase == .unconfigured && !t.fin && t.lastStatus == .configError && t.errSticky) = true := by decide

theorem test_compress_not_configured : answers (step (State.reset.withFetchWord 16 0x0002))
    (fun t => t.fsm == .idle && t.lastStatus == .notConfigured && t.rspValid) = true := by decide

theorem test_compress_starts : answers (step (offering 0x0002#16 configured))
    (fun t => t.fsm == .run && t.P == 1#3 && t.S == 0#5 && t.W == romIv && !t.rspValid) = true := by decide

-- program P4: FINALIZE right after INIT 8, 3 gives D = IV
theorem test_finalize_iv : answers (step (offering 0x0003#16 { configured with cfgDw := 8 }))
    (fun t => t.D == romIv && t.fin && t.lastStatus == .ok) = true := by decide

-- 43_compression_core.md R210, example
theorem test_finalize_zero_fills : answers (step (offering 0x0003#16 { configured with
      H := ⟨0x5D7FAC18, 0xAEEF492A, 0xC35CB01C, 0xB39EB616, 0xC315AE1F, 0x47E3C494, 0xB9DE6A30, 0xBC448E33⟩ }))
    (fun t => t.D == ⟨0x91398FC6, 0x3D1F903F, 0x07C744DF, 0x707D7A35, 0, 0, 0, 0⟩ &&
      digestBytePort t 0 == 0xC6#8 && digestBytePort t 3 == 0x91#8 && digestLenPort t == 16#6) = true := by decide

theorem test_reserved4to7 : answers (step (State.reset.withFetchWord 16 0x0007))
    (fun t => t.lastStatus == .illegalCmd && t.errSticky) = true := by decide

theorem test_reserved8toF : answers (step (offering 0xFFFF#16 finalizedState))
    (fun t => t.lastStatus == .illegalCmd && t.fin && t.phase == .configured) = true := by decide

theorem test_illegal_bits : answers (step (offering 0x0841#16 configured))
    (fun t => t.lastStatus == .illegalCmd && t.phase == .configured && t.cfgN == 3#3) = true := by decide

/-! ## Boolean functions: 95_test_vectors.md section 2.2, vectors V1 and V4 -/

def v1 : Vec7 Word := ⟨0xAAAAAAAA, 0x0F0F0F0F, 0xF0F0F0F0, 0x76543210, 0xFEDCBA98, 0x89ABCDEF, 0x01234567⟩

def v4 : Vec7 Word := ⟨0x082EFA98, 0x299F31D0, 0xA4093822, 0x03707344, 0x13198A2E, 0x85A308D3, 0x243F6A88⟩

theorem test_f1 : answers (exec .f1 (onMux v1)) (fun t => t.muxOut == 0x2E0C6A48#32) = true ∧
    answers (exec .f1 (onMux v4)) (fun t => t.muxOut == 0x8508A00A#32) = true := by decide

theorem test_f2 : answers (exec .f2 (onMux v1)) (fun t => t.muxOut == 0x0C2E486A#32) = true ∧
    answers (exec .f2 (onMux v4)) (fun t => t.muxOut == 0x0D1FEAD8#32) = true := by decide

theorem test_f3 : answers (exec .f3 (onMux v1)) (fun t => t.muxOut == 0x06064242#32) = true ∧
    answers (exec .f3 (onMux v4)) (fun t => t.muxOut == 0x8D26D29A#32) = true := by decide

theorem test_f4 : answers (exec .f4 (onMux v1)) (fun t => t.muxOut == 0x70527052#32) = true ∧
    answers (exec .f4 (onMux v4)) (fun t => t.muxOut == 0x2E3F00DC#32) = true := by decide

theorem test_f5 : answers (exec .f5 (onMux v1)) (fun t => t.muxOut == 0xACACE8E8#32) = true ∧
    answers (exec .f5 (onMux v4)) (fun t => t.muxOut == 0x8D24A80A#32) = true := by decide

theorem test_fsel_reserved : answers (exec .fselReserved (onMux v1)) (fun t => t.lastStatus == .ok) = true ∧
    answers (exec (.fselReserved6 1#1) (onMux v1)) (fun t => t.H == State.reset.H) = true := by decide

/-! ## Tailor: 95_test_vectors.md section 6.1 -/

def hPat : Vec8 Word := ⟨0, 0, 0, 0, 0x4A4B4C4D, 0x5A5B5C5D, 0x6A6B6C6D, 0x7A7B7C7D⟩

def hOnes : Vec8 Word := .tabulate fun _ => 0xFFFFFFFF

theorem test_tailor8 : answers (exec .tailorDw8 (onTailor hPat)) (fun t => t.tailorOut == hPat) = true := by decide

theorem test_tailor7 :
    answers (exec .tailorDw7 (onTailor hPat)) (fun t => t.tailorOut ==
      ⟨0x0000000F, 0x00000009, 0x0000000E, 0x0000001B, 0x4A4B4C5B, 0x5A5B5C64, 0x6A6B6C7A, 0⟩) = true ∧
    answers (exec .tailorDw7 (onTailor hOnes)) (fun t => t.tailorOut ==
      ⟨0x0000001E, 0x0000001E, 0x0000000E, 0x0000001E, 0x0000000E, 0x0000001E, 0x0000000E, 0⟩) = true := by decide

theorem test_tailor6 :
    answers (exec .tailorDw6 (onTailor hPat)) (fun t => t.tailorOut ==
      ⟨0x0000075A, 0x0000006D, 0x000003E3, 0x000006DB, 0x4A4B4EB8, 0x5A5B6030, 0, 0⟩) = true ∧
    answers (exec .tailorDw6 (onTailor hOnes)) (fun t => t.tailorOut ==
      ⟨0x000007FE, 0x000003FE, 0x000007FE, 0x000007FE, 0x000003FE, 0x000007FE, 0, 0⟩) = true := by decide

theorem test_tailor5 :
    answers (exec .tailorDw5 (onTailor hPat)) (fun t => t.tailorOut ==
      ⟨0x0007AD4B, 0x000636AD, 0x00037C5D, 0x0001EDB1, 0x4A52F302, 0, 0, 0⟩) = true ∧
    answers (exec .tailorDw5 (onTailor hOnes)) (fun t => t.tailorOut ==
      ⟨0x0007FFFE, 0x0007FFFE, 0x0007FFFE, 0x0007FFFE, 0x000FFFFE, 0, 0, 0⟩) = true := by decide

theorem test_tailor4 :
    answers (exec .tailorDw4 (onTailor hPat)) (fun t => t.tailorOut ==
      ⟨0x7D6A5B4C, 0x7C6D5A4B, 0x7B6C5D4A, 0x7A6B5C4D, 0, 0, 0, 0⟩) = true ∧
    answers (exec .tailorDw4 (onTailor hOnes)) (fun t => t.tailorOut ==
      ⟨0xFFFFFFFE, 0xFFFFFFFE, 0xFFFFFFFE, 0xFFFFFFFE, 0, 0, 0, 0⟩) = true := by decide

theorem test_tailor_other : answers (exec (.tailorDwOther 3#4) (onTailor hPat)) (fun t => t.D == State.reset.D) = true := by
  decide

/-! ## ROM: 95_test_vectors.md section 4 -/

-- address 0x549
theorem test_rom_read_pass2 : answers (exec (.romRead 5#3 2#3 9#5) State.reset) (fun t => t.romOut ==
    { fsel := 2, phi := ⟨5, 4, 3, 0, 1, 2, 6⟩, widx := 23, rc := 0x8979FB1B }) = true := by decide

-- address 0x5BF
theorem test_rom_read_last : answers (exec (.romRead 5#3 5#3 31#5) State.reset) (fun t => t.romOut ==
    { fsel := 5, phi := ⟨1, 3, 4, 6, 0, 5, 2⟩, widx := 15, rc := 0x409F60C4 }) = true := by decide

/-! ## Step transform and sequencer -/

-- 41_step_transform.md R148
theorem test_step_worked_example :
    answers (step (running 3 1 0 romIv (.tabulate fun k => if k = 0 then 1 else 0))) (fun t => t.W ==
      ⟨0x4A8B047E, 0x243F6A88, 0x85A308D3, 0x13198A2E, 0x03707344, 0xA4093822, 0x299F31D0, 0x082EFA98⟩ &&
      t.P == 1#3 && t.S == 1#5 && t.fsm == .run) = true := by decide

-- 95_test_vectors.md section 3.2: n, p and the new word at s = 5, W = IV, message word 0xDEADBEEF
theorem test_step_every_pass :
    ([(3, 1, 0x2938C36C), (3, 2, 0x3DA7BB6B), (3, 3, 0x3E08F030), (4, 1, 0x6445991C), (4, 2, 0x2969E8CE),
      (4, 3, 0xE0D3C5FE), (4, 4, 0x7E681002)] ++
     [(5, 1, 0x943D8511), (5, 2, 0x6AC1066A), (5, 3, 0x0CE1BA91), (5, 4, 0x122F8395), (5, 5, 0x09767AE4)] :
      List (BitVec 3 × BitVec 3 × Word)).all (fun r =>
        answers (step (running r.1 r.2.1 5 romIv (.tabulate fun _ => 0xDEADBEEF))) (fun t => t.W.e0 == r.2.2)) = true := by
  decide

-- 95_test_vectors.md section 3.3: the last step of a 5-pass compression
theorem test_step_last :
    answers (step (running 5 5 31
      ⟨0x52E6B438, 0xF2A74DE4, 0x269E0D37, 0x6513270E, 0xA6A3A450, 0x0C5C7FD0, 0x128B2F33, 0xD23F0824⟩
      (.tabulate fun k => if k = 15 then 0x8D116ECE else 0)))
      (fun t => t.W.e0 == 0x71B36785#32 && t.W.e7 == 0x128B2F33#32 && t.fsm == .ff && t.P == 5#3 && t.S == 31#5) = true := by
  decide

-- section 3.3: wrap-around at (3, 2, 0)
theorem test_step_wraps :
    answers (step (running 3 2 0 hOnes (.tabulate fun _ => 0xFFFFFFFF))) (fun t => t.W.e0 == 0x452821E3#32) = true := by
  decide

-- section 5.1: the feed-forward of program P1
theorem test_feed_forward :
    answers (step { running 3 3 31
      ⟨0x39404190, 0x294C4057, 0xB04325EE, 0xB02E42D2, 0x1F0C75FD, 0x1E4492C4, 0xB1AF6F98, 0xCFF621AA⟩ zeroBlk with
        fsm := .ff })
      (fun t => t.H ==
        ⟨0x5D7FAC18, 0xAEEF492A, 0xC35CB01C, 0xB39EB616, 0xC315AE1F, 0x47E3C494, 0xB9DE6A30, 0xBC448E33⟩ &&
        t.fsm == .idle && t.rspValid && t.lastStatus == .ok) = true := by decide

-- 70_reset_and_hazards.md R303: reset during RUN; R320: a word offered in RUN is not accepted
theorem test_reset_aborts : answers (step { running 3 1 9 romIv zeroBlk with inputs := [.edge true true 0x0003#16 zeroBlk] })
    (fun t => t.fsm == .idle && t.phase == .unconfigured && !t.rspValid && !t.fin) = true := by decide

theorem test_busy_ignores_init : answers (step (offering 0x0581#16 (running 3 1 9 romIv zeroBlk)))
    (fun t => t.cfgN == 3#3 && t.S == 10#5 && t.H == romIv && !t.rspValid) = true := by decide

theorem test_response_falls : answers (step { configured with rspValid := true }) (fun t => !t.rspValid) = true := by decide

-- program P1, end state: status_out = 0x3405
theorem test_status_out : statusOutPort finalizedState = 0x3405#16 := by decide

theorem test_unit_drives :
    answers (step (State.reset.withFetchWord 3 1)) (fun t => t.muxOut == 0#32) = true ∧
    answers (step { State.reset with inputs := [.mux 5#3 v1] }) (fun t => t.muxOut == 0xACACE8E8#32) = true ∧
    answers (step { State.reset with inputs := [.tailor 4#4 hOnes] }) (fun t => t.tailorOut.e0 == 0xFFFFFFFE#32) = true ∧
    answers (step { State.reset with inputs := [.rom 0x340#11] }) (fun t => t.romOut.rc == 0x452821E6#32) = true := by
  decide

theorem test_assembler :
    AsmLine.event zeroBlk (.init 8 6) = .edge false true 0x0681#16 zeroBlk ∧
      AsmLine.event zeroBlk .reset = .edge true false 0#16 zeroBlk := by decide

/-! ## Witnesses: states and operands that meet the hypotheses of each statement -/

theorem witness_InitLoadsIvAndConfiguration :
    (4 ≤ (4#4).toNat ∧ (4#4).toNat ≤ 8 ∧ 3 ≤ (3#3).toNat ∧ (3#3).toNat ≤ 5) ∧
      (4 ≤ (8#4).toNat ∧ (8#4).toNat ≤ 8 ∧ 3 ≤ (5#3).toNat ∧ (5#3).toNat ≤ 5) := by decide

theorem witness_InitIllegalFieldsClearPhase :
    (3#4).toNat < 4 ∧ 8 < (9#4).toNat ∧ (2#3).toNat < 3 ∧ 5 < (6#3).toNat := by decide

theorem witness_CompressStartLoadsBlockAndWindow : configured.phase = .configured ∧ configured.fin = false := by decide

theorem witness_CompressRejectedWithoutEffect :
    State.reset.phase = .unconfigured ∧ finalizedState.phase = .configured ∧ finalizedState.fin = true := by decide

theorem witness_FinalizeLatchesTailoredDigest :
    configured.phase = .configured ∧ 4 ≤ configured.cfgDw.toNat ∧ configured.cfgDw.toNat ≤ 8 := by decide

theorem witness_FinalizeUnconfiguredRejected : State.reset.phase = .unconfigured := by decide

theorem witness_FinalizeRepeatedChangesNothing :
    configured.phase = .configured ∧ 4 ≤ configured.cfgDw.toNat ∧ configured.cfgDw.toNat ≤ 8 ∧
      ∃ t, exec .finalize configured = .next t := ⟨by decide, by decide, by decide, _, rfl⟩

theorem witness_FunctionsFollowTruthTables : 0 < 32 ∧ 31 < 32 := by decide

theorem witness_RotationsAreBitRotations : 0 ≤ 31 ∧ 31 ≤ 31 := by decide

theorem witness_TailorUsesEveryExtraBitOnce :
    (4 ≤ (4#4).toNat ∧ (4#4).toNat ≤ 7 ∧ (4#4).toNat ≤ (4 : Fin 8).val) ∧
      (4 ≤ (7#4).toNat ∧ (7#4).toNat ≤ 7 ∧ (7#4).toNat ≤ (7 : Fin 8).val) := by decide

theorem witness_RomAloneReadsTables :
    ((3#3).toNat, (1#3).toNat, [4#3, 2#3, 6#3, 5#3, 3#3, 0#3, 1#3]) ∈ phiRows ∧
      ((1#3).toNat, ordRow1) ∈ ordRows ∧ ((1#3).toNat, List.replicate 32 (0 : Word)) ∈ kRows := by
  refine ⟨?_, ?_, ?_⟩ <;> simp [phiRows, ordRows, kRows]

/-- The last pass of n = 4 and of n = 5, the ends of the tables. -/
theorem witness_RomAloneReadsTables_last_passes :
    ((4#3).toNat, (4#3).toNat, [3#3, 1#3, 2#3, 5#3, 0#3, 4#3, 6#3]) ∈ phiRows ∧
      ((4#3).toNat, ordRow4) ∈ ordRows ∧ ((4#3).toNat, kRow4) ∈ kRows ∧
      ((5#3).toNat, (5#3).toNat, [1#3, 3#3, 4#3, 6#3, 0#3, 5#3, 2#3]) ∈ phiRows ∧
      ((5#3).toNat, ordRow5) ∈ ordRows ∧ ((5#3).toNat, kRow5) ∈ kRows := by
  refine ⟨?_, ?_, ?_, ?_, ?_, ?_⟩ <;> simp [phiRows, ordRows, kRows]

theorem witness_RomInvalidAddressOutputsAnyValue :
    (2#3).toNat < 3 ∧ 5 < (7#3).toNat ∧ (0#3).toNat = 0 ∧ (3#3).toNat < (4#3).toNat := by decide

theorem witness_RomSchedulesArePermutations :
    (3 ≤ (3#3).toNat ∧ (3#3).toNat ≤ 5 ∧ 1 ≤ (1#3).toNat ∧ (1#3).toNat ≤ (3#3).toNat) ∧
      (3 ≤ (5#3).toNat ∧ (5#3).toNat ≤ 5 ∧ 1 ≤ (5#3).toNat ∧ (5#3).toNat ≤ (5#3).toNat ∧ 5#3 ≠ 1#3) := by decide

theorem witness_StepRunsDecodedInstruction :
    (configured.fsm = .idle ∧ (offering 0x0002#16 configured).inputs = [.edge false true 0x0002#16 zeroBlk]) ∧
      ({ configured with inputs := [.mux 1#3 v1] } : State).inputs = [.mux 1#3 v1] ∧
      ({ configured with inputs := [.tailor 4#4 hPat] } : State).inputs = [.tailor 4#4 hPat] ∧
      ({ configured with inputs := [.rom 0x320#11] } : State).inputs = [.rom 0x320#11] := by decide

theorem witness_PresentedWordRunsNext :
    decodeTableWord 16 0x0002 = some .compress ∧ decodeTableWord 8 3 = some .f3 ∧
      decodeTableWord 8 7 = some .tailorDw7 ∧ (running 3 1 0 romIv zeroBlk).fsm = .run ∧ configured.fsm = .idle := by
  decide

theorem witness_BusyCoreIgnoresCommandPort : (running 3 1 0 romIv zeroBlk).fsm ≠ .idle := by decide

theorem witness_ResetEdge :
    ({ running 3 1 0 romIv zeroBlk with inputs := [.edge true false 0#16 zeroBlk] } : State).resetNow = true ∧
      ∃ t, step { running 3 1 0 romIv zeroBlk with inputs := [.edge true false 0#16 zeroBlk] } = .next t :=
  ⟨by decide, _, rfl⟩

theorem witness_StepEdgeShiftsInNewWord :
    (running 3 1 0 romIv zeroBlk).fsm = .run ∧ (running 3 1 0 romIv zeroBlk).clockNow = true ∧
      (running 3 1 31 romIv zeroBlk).S.toNat = 31 ∧
      (running 3 1 31 romIv zeroBlk).P.toNat < (running 3 1 31 romIv zeroBlk).cfgN.toNat ∧
      (running 3 3 31 romIv zeroBlk).P.toNat = (running 3 3 31 romIv zeroBlk).cfgN.toNat ∧
      (running 3 1 0 romIv zeroBlk).S.toNat < 31 ∧ 3 ≤ (running 3 1 0 romIv zeroBlk).cfgN.toNat ∧
      (running 3 1 0 romIv zeroBlk).cfgN.toNat ≤ 5 ∧ 1 ≤ (running 3 1 0 romIv zeroBlk).P.toNat := by decide

theorem witness_FeedForwardAddsWindow :
    ({ running 3 3 31 romIv zeroBlk with fsm := .ff } : State).fsm = .ff ∧
      ({ running 3 3 31 romIv zeroBlk with fsm := .ff } : State).clockNow = true := by decide

/-- A state in RUN with the control invariant and the window invariant. -/
theorem running_control : ControlInv (running 3 1 0 romIv zeroBlk) where
  cfgLegal := by decide
  finConfigured := by decide
  busyInRange := by decide
  ffAtEnd := by decide
  errorIsSticky := by decide
  responseIdle := by decide

theorem running_window : WindowInv (running 3 1 0 romIv zeroBlk) where
  running := fun _ _ => rfl
  finished := by intro h; cases h

theorem configured_control : ControlInv (offering 0x0002#16 configured) where
  cfgLegal := by decide
  finConfigured := by decide
  busyInRange := by decide
  ffAtEnd := by decide
  errorIsSticky := by decide
  responseIdle := by decide

theorem finalized_control : ControlInv finalizedState where
  cfgLegal := by decide
  finConfigured := by decide
  busyInRange := by decide
  ffAtEnd := by decide
  errorIsSticky := by decide
  responseIdle := by decide

theorem finalized_digest : DigestInv finalizedState := fun _ _ =>
  latchedDigest_any _ _ (by decide) (by decide) _

theorem witness_SequencerTransitions_ff_and_reset :
    ControlInv { running 3 3 31 romIv zeroBlk with fsm := .ff } ∧
      ({ running 3 3 31 romIv zeroBlk with fsm := .ff } : State).clockNow = true ∧
      (∃ t, step { running 3 3 31 romIv zeroBlk with fsm := .ff } = .next t) ∧
      ControlInv { running 3 1 0 romIv zeroBlk with inputs := [.edge true false 0#16 zeroBlk] } ∧
      ({ running 3 1 0 romIv zeroBlk with inputs := [.edge true false 0#16 zeroBlk] } : State).resetNow = true :=
  ⟨⟨by decide, by decide, by decide, by decide, by decide, by decide⟩, by decide, ⟨_, rfl⟩,
    ⟨by decide, by decide, by decide, by decide, by decide, by decide⟩, by decide⟩

theorem witness_SequencerTransitions :
    (ControlInv (running 3 1 0 romIv zeroBlk) ∧ (running 3 1 0 romIv zeroBlk).clockNow = true ∧
      ∃ t, step (running 3 1 0 romIv zeroBlk) = .next t) ∧
    (ControlInv (offering 0x0002#16 configured) ∧ (offering 0x0002#16 configured).clockNow = true ∧
      ∃ t, step (offering 0x0002#16 configured) = .next t) :=
  ⟨⟨running_control, by decide, _, rfl⟩, configured_control, by decide, _, rfl⟩

theorem witness_ResponseExactlyAfterCompletion :
    (∃ t, (offering 0x0000#16 configured).clockNow = true ∧ step (offering 0x0000#16 configured) = .next t ∧
      t.rspValid = true) ∧
    (∃ t, configured.clockNow = true ∧ step configured = .next t ∧ t.rspValid = false) ∧
    (∃ t, ({ running 3 3 31 romIv zeroBlk with fsm := .ff } : State).clockNow = true ∧
      step { running 3 3 31 romIv zeroBlk with fsm := .ff } = .next t ∧ t.rspValid = true ∧ t.lastStatus = .ok) ∧
    (∃ t, (offering 0x0002#16 configured).clockNow = true ∧ compressStarts (offering 0x0002#16 configured) ∧
      step (offering 0x0002#16 configured) = .next t ∧ t.rspValid = false) ∧
    (∃ t, (offering 0x0391#16 configured).acceptsNow 0x0391#16 ∧
      ¬ (0x0391#16 = 0x0002#16 ∧ compressStarts (offering 0x0391#16 configured)) ∧
      step (offering 0x0391#16 configured) = .next t ∧ t.lastStatus = .configError) ∧
    ∃ t, ({ configured with inputs := [.edge true false 0#16 zeroBlk] } : State).resetNow = true ∧
      step { configured with inputs := [.edge true false 0#16 zeroBlk] } = .next t :=
  ⟨⟨_, by decide, rfl, rfl⟩, ⟨_, by decide, rfl, rfl⟩, ⟨_, by decide, rfl, rfl, rfl⟩, ⟨_, by decide, ⟨rfl, rfl⟩, rfl, rfl⟩,
    ⟨_, ⟨rfl, _, _, rfl⟩, fun h => absurd h.1 (by decide), rfl, rfl⟩, _, by decide, rfl⟩

theorem witness_IllegalWordsWriteIllegalCmd :
    4 ≤ (0x0004#16).toNat % 16 ∧ ((0x0801#16).toNat % 16 = 1 ∧ 2048 ≤ (0x0801#16).toNat) ∧
      ((0x0010#16).toNat % 16 ≠ 1 ∧ 16 ≤ (0x0010#16).toNat) := by decide

theorem witness_RejectedCommandChangesStatusOnly :
    (∃ t, exec (decode (.cmd 0x0391#16)) configured = .next t ∧ t.rspValid = true ∧ t.lastStatus = .configError) ∧
      ∃ t, exec (decode (.cmd 0x0002#16)) State.reset = .next t ∧ t.rspValid = true ∧ t.lastStatus = .notConfigured :=
  ⟨⟨_, rfl, rfl, rfl⟩, _, rfl, rfl, rfl⟩

/-- A step edge, and the acceptance of a COMPRESS that starts, each move S or P. -/
theorem witness_WindowBlockAndDigestWriters :
    (∃ t, step (running 3 1 0 romIv zeroBlk) = .next t ∧ (running 3 1 0 romIv zeroBlk).resetNow = false ∧
      t.S ≠ (running 3 1 0 romIv zeroBlk).S) ∧
    ∃ t, step (offering 0x0002#16 configured) = .next t ∧ (offering 0x0002#16 configured).resetNow = false ∧
      t.P ≠ (offering 0x0002#16 configured).P :=
  ⟨⟨_, rfl, by decide, by decide⟩, _, rfl, by decide, by decide⟩

theorem witness_Writers : configured.resetNow = false ∧ ∃ t, step configured = .next t := ⟨by decide, _, rfl⟩

theorem witness_ErrorStickyUntilReset :
    ∃ t, step (offering 0x0391#16 configured) = .next t ∧ (offering 0x0391#16 configured).errSticky = false ∧
      (offering 0x0391#16 configured).clockNow = true ∧ t.errSticky = true ∧ t.rspValid = true ∧ t.lastStatus ≠ .ok :=
  ⟨_, rfl, by decide, by decide, rfl, rfl, by decide⟩

theorem witness_ControlInvariantKept :
    ControlInv (running 3 1 0 romIv zeroBlk) ∧ ∃ t, step (running 3 1 0 romIv zeroBlk) = .next t :=
  ⟨running_control, _, rfl⟩

theorem witness_DigestInvariantKept :
    ControlInv finalizedState ∧ DigestInv finalizedState ∧ ∃ t, step finalizedState = .next t :=
  ⟨finalized_control, finalized_digest, _, rfl⟩

theorem witness_WindowInvariantKept :
    ControlInv (running 3 1 0 romIv zeroBlk) ∧ WindowInv (running 3 1 0 romIv zeroBlk) ∧
      ∃ t, step (running 3 1 0 romIv zeroBlk) = .next t := ⟨running_control, running_window, _, rfl⟩

/-- For the statements on a whole COMPRESS: accepted in the idle, configured state, no event after it. -/
theorem witness_CompressRuns :
    (offering 0x0002#16 configured).fsm = .idle ∧ compressStarts (offering 0x0002#16 configured) ∧
      3 ≤ (offering 0x0002#16 configured).cfgN.toNat ∧ (offering 0x0002#16 configured).cfgN.toNat ≤ 5 ∧
      (offering 0x0002#16 configured).inputs = .edge false true 0x0002#16 zeroBlk :: [] ∧
      (([] : List Event).take (32 * (offering 0x0002#16 configured).cfgN.toNat + 1)).all Event.plainEdge = true ∧
      0 ≤ 32 * (offering 0x0002#16 configured).cfgN.toNat :=
  ⟨rfl, ⟨rfl, rfl⟩, by decide, by decide, rfl, rfl, by decide⟩

/-- Two states that differ in D, CFG_DW and ERR_STICKY only. -/
theorem witness_CompressDependsOnStateBlockAndPasses :
    let s := offering 0x0002#16 configured
    let s' : State := { offering 0x0002#16 configured with cfgDw := 8, errSticky := true, D := romIv }
    s.fsm = .idle ∧ s'.fsm = .idle ∧ compressStarts s ∧ compressStarts s' ∧ s'.cfgN = s.cfgN ∧ s'.H = s.H ∧
      s.inputs = [.edge false true 0x0002#16 zeroBlk] ∧ s'.inputs = [.edge false true 0x0002#16 zeroBlk] :=
  ⟨rfl, rfl, ⟨rfl, rfl⟩, ⟨rfl, rfl⟩, rfl, rfl, rfl, rfl⟩

theorem witness_DecodeOfEncodeIsSame :
    (Instr.illegalReservedBits 0x001#12 0#2).wf = true ∧ (Instr.illegalReservedBits 0x080#12 1#2).wf = true ∧
      (Instr.tailorDwOther 9#4).wf = true := by decide

theorem witness_StatusOutPacksControlRegisters : finalizedState.phase = .configured := by decide

theorem witness_OutputPortsShowRegisters :
    finalizedState.phase = .configured ∧ finalizedState.fin = true ∧ configured.fin = false := by decide

theorem witness_DigestBytesAreLittleEndian :
    finalizedState.fin = true ∧ DigestInv finalizedState ∧
      4 * finalizedState.cfgDw.toNat ≤ (16 : Fin 32).val :=
  ⟨by decide, finalized_digest, by decide⟩

theorem witness_AssembledLinesDecode : 15 < 16 ∧ 7 < 8 := by decide

end Sys2Proof.Tests
end

section
/-! SUPPORT. The chaining state H, ERR_STICKY and `status_out` (10_state.md R22, R32, R34): what one step leaves in the two
registers, from the inversion `step_cases`, and where each field of the packed word stands. -/

namespace Sys2Proof.Machine

/-! ## H -/

/-- An accepted command word keeps H, but for an INIT with legal fields, which loads the IV (10_state.md R22). -/
theorem exec_command_H {w : BitVec 16} {s t : State} (h : exec (decodeCommand w) s = .next t) :
    t.H = s.H ∨
      ∃ dw n, decodeCommand w = .init dw n ∧ legalDw dw = true ∧ legalN n = true ∧ t.H = romIv := by
  obtain ⟨-, he⟩ | ⟨dw, n, hw, hdw, hn, he⟩ | ⟨_, _, -, -, he⟩ | ⟨-, -, he⟩ | ⟨-, -, -, he⟩ | ⟨-, -, -, he⟩ |
    ⟨-, -, he⟩ | ⟨-, -, he⟩ | ⟨-, -, he⟩ := exec_command_cases w s <;> cases he.symm.trans h
  case inr.inl => exact .inr ⟨dw, n, by rw [hw, decodeCommand_init], hdw, hn, rfl⟩
  all_goals exact .inl rfl

/-- Settles O35, by the inversion of a step: only an accepted command and the feed-forward edge can touch H. -/
theorem chainingStateWrittenInTwoPlaces : Obligations.ChainingStateWrittenInTwoPlaces := by
  intro s t h hr
  obtain ⟨hr', -, -⟩ | ⟨-, -, -, rfl⟩ | ⟨hc, -, hf, rfl⟩ | ⟨-, -, -, -, rfl⟩ | ⟨w, -, -, ha, he⟩ |
    ⟨_, _, _, _, -, -, rfl⟩ := step_cases h
  · simp [hr] at hr'
  · left; simp
  · right; right; exact ⟨hf, hc, fun i => by simp [get_addWords]⟩
  · left; simp
  · obtain hH | ⟨dw, n, hd, hdw, hn, hH⟩ := exec_command_H he
    · left; simpa using hH
    · right; left; exact ⟨w, dw, n, ha, hd, hdw, hn, hH⟩
  · left; simp

/-- Both writers of H occur: an accepted INIT with legal fields, and a feed-forward edge, each without reset. -/
theorem witness_ChainingStateWrittenInTwoPlaces :
    let s : State := { State.reset with inputs := [.edge false true 0x0341#16 State.reset.blkPort] }
    let s' : State := { State.reset with fsm := .ff, W := romIv }
    (∃ t, step s = .next t ∧ s.resetNow = false ∧ t.H ≠ s.H) ∧
      ∃ t, step s' = .next t ∧ s'.resetNow = false ∧ t.H ≠ s'.H :=
  ⟨⟨_, rfl, rfl, by decide⟩, _, rfl, rfl, by decide⟩

/-! ## ERR_STICKY -/

theorem Status.isError_iff (st : Status) : st.isError = true ↔ st ≠ .ok := by
  cases st <;> simp [Status.isError]

/-- ERR_STICKY after a clock edge without reset: the old bit, or an error that completes here (10_state.md R32). An edge
that completes no command shows RSP_VALID = 0 and so keeps the bit. -/
def stickyAfter (s t : State) : Bool := s.errSticky || (t.rspValid && t.lastStatus.isError)

theorem exec_command_errSticky {w : BitVec 16} {s t : State} (h : exec (decodeCommand w) s = .next t) :
    t.errSticky = stickyAfter s t := by
  obtain ⟨-, he⟩ | ⟨_, _, -, -, -, he⟩ | ⟨_, _, -, -, he⟩ | ⟨-, -, he⟩ | ⟨-, -, -, he⟩ | ⟨-, -, -, he⟩ |
    ⟨-, -, he⟩ | ⟨-, -, he⟩ | ⟨-, -, he⟩ := exec_command_cases w s <;>
    cases he.symm.trans h <;> simp [stickyAfter]

/-- What a step does to ERR_STICKY: a reset edge clears it, a clock edge adds the error that completes, and the drive of a
unit alone keeps it. -/
theorem step_errSticky {s t : State} (h : step s = .next t) :
    (s.resetNow = true ∧ s.clockNow = false ∧ t.errSticky = false) ∨
    (s.resetNow = false ∧ s.clockNow = true ∧ t.errSticky = stickyAfter s t) ∨
    (s.resetNow = false ∧ s.clockNow = false ∧ t.errSticky = s.errSticky) := by
  obtain ⟨hr, hc, rfl⟩ | ⟨hc, hr, -, rfl⟩ | ⟨hc, hr, -, rfl⟩ | ⟨hc, hr, -, -, rfl⟩ | ⟨w, hc, hr, -, he⟩ |
    ⟨_, _, _, _, hc, hr, rfl⟩ := step_cases h
  · exact .inl ⟨hr, hc, rfl⟩
  · exact .inr (.inl ⟨hr, hc, by simp [stickyAfter]⟩)
  · exact .inr (.inl ⟨hr, hc, by simp [stickyAfter, Status.isError]⟩)
  · exact .inr (.inl ⟨hr, hc, by simp [stickyAfter]⟩)
  · exact .inr (.inl ⟨hr, hc, by simpa [stickyAfter] using exec_command_errSticky he⟩)
  · exact .inr (.inr ⟨hr, hc, by simp⟩)

/-- Settles O38, by the three things a step can do to ERR_STICKY. -/
theorem errorStickyUntilReset : Obligations.ErrorStickyUntilReset := by
  intro s t h
  obtain ⟨hr, hc, he⟩ | ⟨hr, hc, he⟩ | ⟨hr, hc, he⟩ := step_errSticky h
  · simp [hr, hc, he]
  · simp +contextual [hr, he, stickyAfter, Status.isError_iff]
  · simp +contextual [hr, hc, he]

/-! ## status_out -/

theorem Phase.bit_eq (p : Phase) : p.bit = decide (p = .configured) := by
  cases p <;> rfl

theorem Fsm.busy_eq (f : Fsm) : f.busy = decide (f ≠ .idle) := by
  cases f <;> rfl

/-- A word packed as `status_out` is, bit 15 first (10_state.md R34). -/
def packed (n : BitVec 3) (dw : BitVec 4) (code : BitVec 3) (e f b p : Bool) : BitVec 16 :=
  0#1 ++ n ++ dw ++ 0#1 ++ code ++ BitVec.ofBool e ++ BitVec.ofBool f ++ BitVec.ofBool b ++ BitVec.ofBool p

theorem statusOutPort_eq_packed (s : State) :
    statusOutPort s = packed (shownCfgN s) (shownCfgDw s) s.lastStatus.code s.errSticky s.fin s.fsm.busy s.phase.bit :=
  rfl

/-- The single bits of a packed word. -/
theorem packed_bits (n : BitVec 3) (dw : BitVec 4) (code : BitVec 3) (e f b p : Bool) :
    (packed n dw code e f b p).getLsbD 0 = p ∧ (packed n dw code e f b p).getLsbD 1 = b ∧
      (packed n dw code e f b p).getLsbD 2 = f ∧ (packed n dw code e f b p).getLsbD 3 = e ∧
      (packed n dw code e f b p).getLsbD 7 = false ∧ (packed n dw code e f b p).getLsbD 15 = false := by
  unfold packed
  refine ⟨?_, ?_, ?_, ?_, ?_, ?_⟩ <;> grind

/-- The wider fields of a packed word, bit by bit. -/
theorem packed_fields (n : BitVec 3) (dw : BitVec 4) (code : BitVec 3) (e f b p : Bool) :
    (packed n dw code e f b p).extractLsb' 4 3 = code ∧ (packed n dw code e f b p).extractLsb' 8 4 = dw ∧
      (packed n dw code e f b p).extractLsb' 12 3 = n := by
  unfold packed
  refine ⟨?_, ?_, ?_⟩ <;> ext i hi <;> grind

/-- With PHASE = 1 the CFG fields are shown as they are (10_state.md R34). -/
theorem shownCfg_of_configured {s : State} (h : s.phase = .configured) :
    shownCfgDw s = s.cfgDw ∧ shownCfgN s = s.cfgN := by
  simp [shownCfgDw, shownCfgN, h]

/-- Settles O52, by the bits and the fields of the packed word. -/
theorem statusOutPacksControlRegisters : Obligations.StatusOutPacksControlRegisters := by
  intro s
  simp only [statusOutPort_eq_packed]
  obtain ⟨h0, h1, h2, h3, h7, h15⟩ := packed_bits (shownCfgN s) (shownCfgDw s) s.lastStatus.code s.errSticky s.fin
    s.fsm.busy s.phase.bit
  obtain ⟨h4, h8, h12⟩ := packed_fields (shownCfgN s) (shownCfgDw s) s.lastStatus.code s.errSticky s.fin s.fsm.busy
    s.phase.bit
  refine ⟨h0.trans (Phase.bit_eq _), h1.trans (Fsm.busy_eq _), h2, h3, h4, h7, fun hp => ?_, h15⟩
  obtain ⟨hdw, hn⟩ := shownCfg_of_configured hp
  exact ⟨h8.trans hdw, h12.trans hn⟩

end Sys2Proof.Machine
end

section
/-! SUPPORT. The little-endian bytes of `digest_bytes` (20_memory.md R62, R64): the byte of a word of D each one is, the
word its four bytes make, and the zero fill past the digest. -/

namespace Sys2Proof.Machine

/-! ## The bytes of a word -/

/-- Byte `k` of a word, in its place in a word of 0s. -/
def placedByte (v : Word) (k : Fin 4) : Word := (byteOf v k).setWidth 32 <<< (8 * k.val)

/-- A placed byte is the word on the bits of that byte and 0 elsewhere. -/
theorem getLsbD_placedByte (v : Word) (k : Fin 4) {j : Nat} (hj : j < 32) :
    (placedByte v k).getLsbD j = (decide (j / 8 = k.val) && v.getLsbD j) := by
  simp only [placedByte, byteOf, BitVec.getLsbD_shiftLeft, BitVec.getLsbD_setWidth, BitVec.getLsbD_extractLsb', hj,
    decide_true, Bool.true_and]
  by_cases hk : j / 8 = k.val
  · have hbit : 8 * k.val + (j - 8 * k.val) = j := by omega
    have hlo : ¬ j < 8 * k.val := by omega
    have hhi : j - 8 * k.val < 8 := by omega
    have hw : j - 8 * k.val < 32 := by omega
    simp [hk, hbit, hlo, hhi, hw]
  · obtain hlo | hhi : j < 8 * k.val ∨ ¬ j - 8 * k.val < 8 := by omega
    · simp [hk, hlo]
    · simp [hk, hhi]

theorem wordOfBytes_eq_placedBytes (v : Word) :
    wordOfBytes (byteOf v 0) (byteOf v 1) (byteOf v 2) (byteOf v 3) =
      placedByte v 0 ||| placedByte v 1 ||| placedByte v 2 ||| placedByte v 3 := by
  simp [wordOfBytes, placedByte]

/-- The four bytes of a word, put together little-endian, are the word: every bit stands in exactly one byte. -/
theorem wordOfBytes_byteOf (v : Word) : wordOfBytes (byteOf v 0) (byteOf v 1) (byteOf v 2) (byteOf v 3) = v := by
  refine BitVec.eq_of_getLsbD_eq fun j hj => ?_
  have hbyte : j / 8 = 0 ∨ j / 8 = 1 ∨ j / 8 = 2 ∨ j / 8 = 3 := by omega
  rw [wordOfBytes_eq_placedBytes]
  simp only [BitVec.getLsbD_or, getLsbD_placedByte v _ hj]
  obtain h | h | h | h := hbyte <;> simp [h]

/-! ## digest_bytes -/

/-- The little-endian view of D: with FIN = 1, byte `4i + k` of `digest_bytes` is byte `k` of D[i] (20_memory.md R62). -/
theorem digestBytePort_eq_byteOf {s : State} (hf : s.fin = true) (i : Fin 8) (k : Fin 4) :
    digestBytePort s ⟨4 * i.val + k.val, by omega⟩ = byteOf (s.D.get i) k := by
  have hi : (4 * i.val + k.val) / 4 = i.val := by omega
  have hk : (4 * i.val + k.val) % 4 = k.val := by omega
  simp [digestBytePort, hf, hi, hk]

/-- The zero fill of the latched digest, whatever the length (10_state.md R25). -/
theorem get_latchedDigest_of_le (any : AnyValue) {dw : BitVec 4} (h : Vec8 Word) {i : Fin 8} (hi : dw.toNat ≤ i.val) :
    (latchedDigest any dw h).get i = 0 := by
  simp [latchedDigest, Nat.not_lt.mpr hi]

/-- With FIN = 1 and the digest invariant, the words of D from CFG_DW on are 0. -/
theorem DigestInv.get_D_of_le {s : State} (hd : DigestInv s) (hf : s.fin = true) {i : Fin 8}
    (hi : s.cfgDw.toNat ≤ i.val) : s.D.get i = 0 := by
  rw [hd hf s.any, get_latchedDigest_of_le s.any s.H hi]

/-- A byte of `digest_bytes` in a word of D that is 0 is 0. -/
theorem digestBytePort_of_get_D_eq_zero {s : State} (hf : s.fin = true) (b : Fin 32)
    (hD : s.D.get ⟨b.val / 4, by omega⟩ = 0) : digestBytePort s b = 0 := by
  simp [digestBytePort, hf, hD, byteOf]

/-- Settles O54, by the little-endian view of D, the bytes of a word, and the zero fill of D. -/
theorem digestBytesAreLittleEndian : Obligations.DigestBytesAreLittleEndian := by
  intro s i hf
  have hview := digestBytePort_eq_byteOf hf i
  refine ⟨fun hd b hb => ?_, hview, ?_⟩
  · have hword : s.cfgDw.toNat ≤ b.val / 4 := by omega
    exact digestBytePort_of_get_D_eq_zero hf b (hd.get_D_of_le hf hword)
  · calc wordOfBytes _ _ _ _
        = wordOfBytes (byteOf (s.D.get i) 0) (byteOf (s.D.get i) 1) (byteOf (s.D.get i) 2) (byteOf (s.D.get i) 3) :=
          congr (congr (congr (congrArg wordOfBytes (hview 0)) (hview 1)) (hview 2)) (hview 3)
      _ = s.D.get i := wordOfBytes_byteOf _

end Sys2Proof.Machine
end

section
/-! SUPPORT. The mux driven alone at the codes 1 to 5 (30_encoding.md R87, 40_boolean_functions.md R112 to R116): which
instruction each code is, and the state each of the five answers. -/

namespace Sys2Proof.Machine

/-! ## The five codes -/

@[simp] theorem decodeFsel_one : decodeFsel 1#3 = .f1 := rfl
@[simp] theorem decodeFsel_two : decodeFsel 2#3 = .f2 := rfl
@[simp] theorem decodeFsel_three : decodeFsel 3#3 = .f3 := rfl
@[simp] theorem decodeFsel_four : decodeFsel 4#3 = .f4 := rfl
@[simp] theorem decodeFsel_five : decodeFsel 5#3 = .f5 := rfl

/-! ## The five functions: the output wire gets the function of the input words, the rest of the state is kept -/

@[simp] theorem exec_f1 (s : State) : exec .f1 s = .next { s with muxOut := funF1 s.muxIn } := rfl
@[simp] theorem exec_f2 (s : State) : exec .f2 s = .next { s with muxOut := funF2 s.muxIn } := rfl
@[simp] theorem exec_f3 (s : State) : exec .f3 s = .next { s with muxOut := funF3 s.muxIn } := rfl
@[simp] theorem exec_f4 (s : State) : exec .f4 s = .next { s with muxOut := funF4 s.muxIn } := rfl
@[simp] theorem exec_f5 (s : State) : exec .f5 s = .next { s with muxOut := funF5 s.muxIn } := rfl

/-- Settles O10, by the code and the answer of each function: `funF1` to `funF5` are R112 to R116 as the spec prints
them, so each answer is the stated formula once the function is unfolded. -/
theorem muxAloneComputesFiveFunctions : Obligations.MuxAloneComputesFiveFunctions := by
  intro s
  refine ⟨⟨decodeFsel_one, decodeFsel_two, decodeFsel_three, decodeFsel_four, decodeFsel_five⟩, ?_, ?_, ?_, ?_, ?_⟩
  · rw [exec_f1, funF1]
  · rw [exec_f2, funF2]
  · rw [exec_f3, funF3]
  · rw [exec_f4, funF4]
  · rw [exec_f5, funF5]

end Sys2Proof.Machine
end

section
/-! SUPPORT. The ROM driven alone at a valid address (42_pass_schedule_rom.md R160 to R164): the model's tables are the
tables written out as lists, and the answer of ROM_READ is the read of those tables. -/

namespace Sys2Proof

/-! ## The fixed groups as lists, as the tables of the statements print them -/

def Vec7.toList {α : Type} (v : Vec7 α) : List α := [v.e0, v.e1, v.e2, v.e3, v.e4, v.e5, v.e6]

def Vec8.toList {α : Type} (v : Vec8 α) : List α := [v.e0, v.e1, v.e2, v.e3, v.e4, v.e5, v.e6, v.e7]

def Vec32.toList {α : Type} (v : Vec32 α) : List α := v.q0.toList ++ v.q1.toList ++ v.q2.toList ++ v.q3.toList

theorem Vec7.getElem?_toList {α : Type} (v : Vec7 α) (i : Fin 7) : v.toList[i.val]? = some (v.get i) := by
  fin_cases i <;> rfl

theorem Vec32.getElem?_toList {α : Type} (v : Vec32 α) (k : Fin 32) : v.toList[k.val]? = some (v.get k) := by
  fin_cases k <;> rfl

end Sys2Proof

namespace Sys2Proof.Machine
open Sys2Proof.Claims

/-! ## The three tables -/

/-- The listed rows of R162 stand at valid addresses. -/
theorem validRomAddr_of_mem_phiRows {n p : BitVec 3} {row : List (BitVec 3)}
    (h : (n.toNat, p.toNat, row) ∈ phiRows) :
    validRomAddr n p = true := by
  have hrows : ∀ e ∈ phiRows, 3 ≤ e.1 ∧ e.1 ≤ 5 ∧ 1 ≤ e.2.1 ∧ e.2.1 ≤ e.1 := by decide
  exact (validRomAddr_iff n p).mpr (hrows _ h)

/-- PHI(n, p) is the listed row of (n, p) (R162). -/
theorem toList_phiRow (any : AnyValue) {n p : BitVec 3} {row : List (BitVec 3)}
    (h : (n.toNat, p.toNat, row) ∈ phiRows) :
    (phiRow any n p).toList = row := by
  simp only [phiRows, List.mem_cons, Prod.mk.injEq, List.not_mem_nil, or_false] at h
  obtain ⟨hn, hp, rfl⟩ | ⟨hn, hp, rfl⟩ | ⟨hn, hp, rfl⟩ | ⟨hn, hp, rfl⟩ | ⟨hn, hp, rfl⟩ | ⟨hn, hp, rfl⟩ |
    ⟨hn, hp, rfl⟩ | ⟨hn, hp, rfl⟩ | ⟨hn, hp, rfl⟩ | ⟨hn, hp, rfl⟩ | ⟨hn, hp, rfl⟩ | ⟨hn, hp, rfl⟩ := h <;>
    simp only [phiRow, hn, hp, Vec7.toList]

/-- ORD(p, k) is entry `k` of the listed row of pass p (R163): each row lists the model's table in order. -/
theorem getElem?_ordRow (any : AnyValue) {p : BitVec 3} {ords : List (BitVec 5)} (h : (p.toNat, ords) ∈ ordRows)
    (k : BitVec 5) :
    ords[k.toNat]? = some (ordAt any p k) := by
  simp only [ordRows, List.mem_cons, Prod.mk.injEq, List.not_mem_nil, or_false] at h
  obtain ⟨hp, rfl⟩ | ⟨hp, rfl⟩ | ⟨hp, rfl⟩ | ⟨hp, rfl⟩ | ⟨hp, rfl⟩ := h <;> simp only [ordAt, hp]
  · exact ord1.getElem?_toList k.toFin
  · exact ord2.getElem?_toList k.toFin
  · exact ord3.getElem?_toList k.toFin
  · exact ord4.getElem?_toList k.toFin
  · exact ord5.getElem?_toList k.toFin

/-- K(p, k) is entry `k` of the listed table of pass p (R164): each table lists the model's in order. -/
theorem getElem?_kRow (any : AnyValue) {p : BitVec 3} {ks : List Word} (h : (p.toNat, ks) ∈ kRows) (k : BitVec 5) :
    ks[k.toNat]? = some (kAt any p k) := by
  simp only [kRows, List.mem_cons, Prod.mk.injEq, List.not_mem_nil, or_false] at h
  obtain ⟨hp, rfl⟩ | ⟨hp, rfl⟩ | ⟨hp, rfl⟩ | ⟨hp, rfl⟩ | ⟨hp, rfl⟩ := h <;> simp only [kAt, hp]
  · exact k1.getElem?_toList k.toFin
  · exact k2.getElem?_toList k.toFin
  · exact k3.getElem?_toList k.toFin
  · exact k4.getElem?_toList k.toFin
  · exact k5.getElem?_toList k.toFin

/-! ## ROM_READ -/

/-- At a valid address the read takes no open value: the output wires alone are written (R160). -/
theorem exec_romRead_valid {n p : BitVec 3} (h : validRomAddr n p = true) (k : BitVec 5) (s : State) :
    exec (.romRead n p k) s = .next { s with romOut := ⟨p, phiRow s.any n p, ordAt s.any p k, kAt s.any p k⟩ } := by
  simp [exec, execRomRead, h, romRead_valid s.any h]

/-- Settles O20, by the answer of ROM_READ at a valid address and the agreement of each table with its list. -/
theorem romAloneReadsTables : Obligations.RomAloneReadsTables := by
  intro s n p k row ords ks hrow hords hks
  have hvalid := validRomAddr_of_mem_phiRows hrow
  have hphi : ∀ j : Fin 7, row[j.val]? = some ((phiRow s.any n p).get j) := fun j => by
    rw [← toList_phiRow s.any hrow, Vec7.getElem?_toList]
  exact ⟨_, Laws.RoundTrip.romRead n p k rfl, exec_romRead_valid hvalid k s, rfl, hphi, getElem?_ordRow s.any hords k,
    getElem?_kRow s.any hks k, rfl⟩

end Sys2Proof.Machine
end

section
/-! SUPPORT. The command port (43_compression_core.md R200 to R213): the state that each instruction of the core answers,
one equation per case, and what a command that ends with an error leaves unchanged (R194). -/

namespace Sys2Proof.Machine

/-! ## The two completions -/

/-- A completion with OK does not touch ERR_STICKY (R193). -/
theorem complete_ok (s : State) : complete .ok s = { s with lastStatus := .ok, rspValid := true } := by
  simp [complete, Status.isError]

/-- A completion with an error sets ERR_STICKY and keeps everything but the status registers (R193, R194). -/
theorem reject_of_ne_ok {st : Status} (h : st ≠ .ok) (s : State) :
    reject st s = { s with lastStatus := st, errSticky := true, rspValid := true } := by
  simp [reject, complete, (Status.isError_iff st).mpr h]

/-! ## The answer of each instruction of the core -/

theorem exec_nop (s : State) : exec .nop s = .next (complete .ok s) := rfl

theorem exec_init_of_legal {dw : BitVec 4} {n : BitVec 3} (hdw : legalDw dw = true) (hn : legalN n = true) (s : State) :
    exec (.init dw n) s =
      .next (complete .ok { s with H := romIv, cfgN := n, cfgDw := dw, phase := .configured, fin := false }) := by
  simp [exec, execInit, hdw, hn]

theorem exec_init_of_illegal {dw : BitVec 4} {n : BitVec 3} (h : ¬ (legalDw dw = true ∧ legalN n = true)) (s : State) :
    exec (.init dw n) s = .next (reject .configError { s with phase := .unconfigured, fin := false }) := by
  simp only [exec, execInit, Bool.and_eq_true, h, if_false]

theorem exec_compress_of_unconfigured {s : State} (hp : s.phase = .unconfigured) :
    exec .compress s = .next (reject .notConfigured s) := by
  simp [exec, execCompress, hp]

theorem exec_compress_of_finalized {s : State} (hp : s.phase = .configured) (hf : s.fin = true) :
    exec .compress s = .next (reject .finalized s) := by
  simp [exec, execCompress, hp, hf]

theorem exec_compress_of_starts {s : State} (hp : s.phase = .configured) (hf : s.fin = false) :
    exec .compress s = .next (startCompress s) := by
  simp [exec, execCompress, hp, hf]

theorem exec_finalize_of_unconfigured {s : State} (hp : s.phase = .unconfigured) :
    exec .finalize s = .next (reject .notConfigured s) := by
  simp [exec, execFinalize, hp]

theorem exec_finalize_of_configured {s : State} (hp : s.phase = .configured) :
    exec .finalize s = .next (complete .ok { s with D := latchedDigest s.any s.cfgDw s.H, fin := true }) := by
  simp [exec, execFinalize, hp]

theorem exec_reservedOpc4to7 (rest : BitVec 12) (lo : BitVec 2) (s : State) :
    exec (.reservedOpc4to7 rest lo) s = .next (reject .illegalCmd s) := rfl

theorem exec_reservedOpc8toF (rest : BitVec 12) (lo : BitVec 3) (s : State) :
    exec (.reservedOpc8toF rest lo) s = .next (reject .illegalCmd s) := rfl

theorem exec_illegalReservedBits (rest : BitVec 12) (opc : BitVec 2) (s : State) :
    exec (.illegalReservedBits rest opc) s = .next (reject .illegalCmd s) := rfl

/-! ## The statements about single commands -/

/-- Settles O1, by the answer of NOP. -/
theorem nopWritesOkOnly : Obligations.NopWritesOkOnly :=
  ⟨Laws.RoundTrip.nop rfl, fun s => by rw [exec_nop, complete_ok]⟩

/-- Settles O2, by the answer of INIT with legal fields; `romIv` is the IV as R165 prints it. -/
theorem initLoadsIvAndConfiguration : Obligations.InitLoadsIvAndConfiguration := by
  intro s dw n hdw4 hdw8 hn3 hn5
  refine ⟨decodeCommand_init dw n, ?_⟩
  rw [exec_init_of_legal ((legalDw_iff dw).mpr ⟨hdw4, hdw8⟩) ((legalN_iff n).mpr ⟨hn3, hn5⟩), complete_ok, romIv]

/-- Settles O3, by the answer of INIT with an illegal field. -/
theorem initIllegalFieldsClearPhase : Obligations.InitIllegalFieldsClearPhase := by
  intro s dw n hfields
  have hill : ¬ (legalDw dw = true ∧ legalN n = true) := by
    rw [legalDw_iff, legalN_iff]
    omega
  exact ⟨decodeCommand_init dw n, by rw [exec_init_of_illegal hill, reject_of_ne_ok (by decide)]⟩

/-- Settles O4, by the answer of a COMPRESS that starts. -/
theorem compressStartLoadsBlockAndWindow : Obligations.CompressStartLoadsBlockAndWindow :=
  ⟨Laws.RoundTrip.compress rfl, fun _ hp hf => exec_compress_of_starts hp hf⟩

/-- Settles O5, by the answers of a COMPRESS that is rejected. -/
theorem compressRejectedWithoutEffect : Obligations.CompressRejectedWithoutEffect := by
  intro s
  refine ⟨fun hp => ?_, fun hp hf => ?_⟩
  · rw [exec_compress_of_unconfigured hp, reject_of_ne_ok (by decide)]
  · rw [exec_compress_of_finalized hp hf, reject_of_ne_ok (by decide)]

/-- Settles O6, by the answer of FINALIZE; at a legal CFG_DW the latched words depend on no open value. -/
theorem finalizeLatchesTailoredDigest : Obligations.FinalizeLatchesTailoredDigest := by
  refine ⟨Laws.RoundTrip.finalize rfl, fun s any hp h4 h8 => ⟨_, exec_finalize_of_configured hp, ?_, fun i => ?_⟩⟩
  · rw [complete_ok]
  · rw [complete_D, latchedDigest_any s.any any h4 h8, latchedDigest, Vec8.get_tabulate]

/-- Settles O7, by the answer of FINALIZE when not configured. -/
theorem finalizeUnconfiguredRejected : Obligations.FinalizeUnconfiguredRejected := by
  intro s hp
  rw [exec_finalize_of_unconfigured hp, reject_of_ne_ok (by decide)]

/-! ## Illegal words and rejected commands -/

/-- The converse of `illegal_word_of_decode`: a word with a reserved opcode or a reserved bit set is none of the words of
the four commands, so it decodes to one of the illegal instructions and is rejected (R213). -/
theorem exec_illegal_word {w : BitVec 16}
    (h : 4 ≤ w.toNat % 16 ∨ (w.toNat % 16 = 1 ∧ 2048 ≤ w.toNat) ∨ (w.toNat % 16 ≠ 1 ∧ 16 ≤ w.toNat)) (s : State) :
    exec (decodeCommand w) s = .next (reject .illegalCmd s) := by
  obtain ⟨rfl, -⟩ | ⟨dw, n, rfl, -⟩ | ⟨rfl, -⟩ | ⟨rfl, -⟩ | ⟨_, _, hd⟩ | ⟨_, _, hd⟩ | ⟨_, _, hd⟩ := decodeCommand_cases w
  · exact absurd h (by decide)
  · rw [init_word_toNat] at h
    omega
  · exact absurd h (by decide)
  · exact absurd h (by decide)
  · rw [hd, exec_reservedOpc4to7]
  · rw [hd, exec_reservedOpc8toF]
  · rw [hd, exec_illegalReservedBits]

/-- Settles O9, by the answer of an illegal word and of the three instructions such words decode to. -/
theorem illegalWordsWriteIllegalCmd : Obligations.IllegalWordsWriteIllegalCmd := by
  intro s w rest lo2 lo3 opc t
  have ht : reject .illegalCmd s = t := reject_of_ne_ok (by decide) s
  rw [← ht]
  exact ⟨fun hw => exec_illegal_word hw s, exec_reservedOpc4to7 rest lo2 s, exec_reservedOpc8toF rest lo3 s,
    exec_illegalReservedBits rest opc s⟩

/-- Settles O34, by everything an accepted word can do: what ends with an error is a rejection, of the state as it is or,
for a failed INIT, of the state with PHASE and FIN cleared. -/
theorem rejectedCommandChangesStatusOnly : Obligations.RejectedCommandChangesStatusOnly := by
  intro s t w h hv hne
  obtain ⟨-, he⟩ | ⟨_, _, -, -, -, he⟩ | ⟨_, _, -, -, he⟩ | ⟨-, -, he⟩ | ⟨-, -, -, he⟩ | ⟨-, -, -, he⟩ |
    ⟨-, -, he⟩ | ⟨-, -, he⟩ | ⟨-, -, he⟩ := exec_command_cases w s <;> cases he.symm.trans h
  case inr.inr.inl => exact .inr ⟨rfl, reject_of_ne_ok (by decide) _⟩
  case inr.inr.inr.inr.inr.inl => cases hv
  case inl | inr.inl | inr.inr.inr.inr.inr.inr.inr.inl => exact absurd rfl hne
  all_goals exact .inl ⟨by simp, reject_of_ne_ok (by simp) s⟩

end Sys2Proof.Machine
end

section
/-! SUPPORT. The step edge and the feed-forward edge (43_compression_core.md R206, R208): the step's new window at a valid
ROM address, how the position (P, S) advances, and what the two edges leave unchanged. -/

namespace Sys2Proof.Machine

/-! ## The frame of an edge -/

/-- What stands in the head of the events at a clock edge without reset. -/
theorem inputs_of_clockNow {s : State} (h : s.clockNow = true) :
    s.inputs = [] ∨ ∃ v c b rest, s.inputs = .edge false v c b :: rest := by
  unfold State.clockNow at h
  rcases hi : s.inputs with _ | ⟨⟨_ | _, v, c, b⟩ | _ | _ | _, rest⟩ <;> simp_all [Event.plainEdge]

/-- At a clock edge the ports of the core alone are sampled: the data inputs of the other units stay. -/
theorem sampled_of_clockNow {s : State} (h : s.clockNow = true) :
    sampled s = { s with
      inputs := s.inputs.tail
      blkPort := (sampled s).blkPort
      draws := s.draws + 1 } := by
  obtain hi | ⟨v, c, b, rest, hi⟩ := inputs_of_clockNow h
  · rw [sampled_nil hi]
    simp [tick, hi]
  · rw [sampled_edge hi, hi]
    rfl

/-- The step edge writes W, P, S and FSM, and RSP_VALID falls (R206). -/
theorem stepEdge_eq (s : State) :
    stepEdge s = { s with
      W := (stepEdge s).W
      P := (stepEdge s).P
      S := (stepEdge s).S
      fsm := (stepEdge s).fsm
      rspValid := false } := by
  unfold stepEdge noResponse
  rw [advance_eq]

/-- The feed-forward edge writes H, FSM and the status registers (R208). -/
theorem feedForwardEdge_eq (s : State) :
    feedForwardEdge s = { s with H := addWords s.H s.W, fsm := .idle, lastStatus := .ok, rspValid := true } :=
  complete_ok _

/-! ## The new window -/

/-- `rotr` of the spec is the library's rotation for the amounts a word has (00_scope.md R11). -/
theorem rotr_eq_rotateRight (v : Word) {k : Nat} (hk : k < 32) : rotr v k = v.rotateRight k := by
  rw [BitVec.rotateRight_def, Nat.mod_eq_of_lt hk, rotr]
  split
  case isTrue h0 => subst h0; simp
  case isFalse => rfl

/-- The window after a step at a valid ROM address, written out (41_step_transform.md R140 to R144); the open values that
the hardware has there and those of the ROM read do not matter. -/
theorem stepWindow_valid (any any' : AnyValue) {n p : BitVec 3} (h : validRomAddr n p = true) (k : BitVec 5)
    (W : Vec8 Word) (M : Vec32 Word) :
    stepWindow any' n p k W M =
      ⟨(boolMux any p (.tabulate fun j => W.get ((romRead any n p k).phi.get j).toFin)).rotateRight 7 +
          W.e7.rotateRight 11 + M.get (romRead any n p k).widx.toFin + (romRead any n p k).rc,
        W.e0, W.e1, W.e2, W.e3, W.e4, W.e5, W.e6⟩ := by
  rw [stepWindow_any any' any h, stepWindow, newWord_valid any h, rotr_eq_rotateRight _ (by decide),
    rotr_eq_rotateRight _ (by decide), romRead_valid any h, shiftIn]

/-! ## The step position -/

/-- How (P, S) and FSM advance while P is in range: inside a pass, from a pass to the next, and at the last step
(10_state.md R30). -/
theorem advance_cases {s : State} (hP : s.P.toNat ≤ s.cfgN.toNat) :
    (s.S.toNat < 31 ∧ (advance s).S.toNat = s.S.toNat + 1 ∧ (advance s).P = s.P ∧ (advance s).fsm = s.fsm) ∨
    (s.S.toNat = 31 ∧ s.P.toNat < s.cfgN.toNat ∧ (advance s).S.toNat = 0 ∧
      (advance s).P.toNat = s.P.toNat + 1 ∧ (advance s).fsm = s.fsm) ∨
    (s.S.toNat = 31 ∧ s.P.toNat = s.cfgN.toNat ∧ (advance s).S = s.S ∧ (advance s).P = s.P ∧
      (advance s).fsm = .ff) := by
  have hS := s.S.isLt
  have hN := s.cfgN.isLt
  unfold advance
  split_ifs with hlast hpass
  · have hS' : (s.S + 1#5).toNat = s.S.toNat + 1 :=
      BitVec.toNat_add_of_lt (by change s.S.toNat + 1 < 32; omega)
    exact .inl ⟨hlast, hS', rfl, rfl⟩
  · have hP' : (s.P + 1#3).toNat = s.P.toNat + 1 :=
      BitVec.toNat_add_of_lt (by change s.P.toNat + 1 < 8; omega)
    exact .inr (.inl ⟨by omega, hpass, rfl, hP', rfl⟩)
  · exact .inr (.inr ⟨by omega, by omega, rfl, rfl, rfl⟩)

/-- A step edge leads to FF at the last step of the last pass and nowhere else, and stays in RUN otherwise (R190). -/
theorem advance_fsm_of_run {s : State} (hrun : s.fsm = .run) (hP : s.P.toNat ≤ s.cfgN.toNat) :
    ((advance s).fsm = .ff ↔ s.P.toNat = s.cfgN.toNat ∧ s.S.toNat = 31) ∧
      ((advance s).fsm = .ff ∨ (advance s).fsm = .run) := by
  obtain ⟨hS, -, -, hF⟩ | ⟨-, hlt, -, -, hF⟩ | ⟨hS, heq, -, -, hF⟩ := advance_cases hP
  · simp [hF, hrun, hS.ne]
  · simp [hF, hrun, hlt.ne]
  · simp [hF, hS, heq]

/-- While the sequencer stays in RUN, `32 * (P - 1) + S` counts the steps (70_reset_and_hazards.md R311). -/
theorem stepCount_advance {s : State} (hP1 : 1 ≤ s.P.toNat) (hP : s.P.toNat ≤ s.cfgN.toNat)
    (hrun' : (advance s).fsm = .run) :
    32 * ((advance s).P.toNat - 1) + (advance s).S.toNat = 32 * (s.P.toNat - 1) + s.S.toNat + 1 := by
  obtain ⟨-, hS', hP', -⟩ | ⟨hS, -, hS', hP', -⟩ | ⟨-, -, -, -, hF⟩ := advance_cases hP
  · rw [hS', hP']
    omega
  · omega
  · rw [hF] at hrun'
    cases hrun'

/-! ## The two statements -/

/-- Settles O29, by the written-out window, the three ways the position advances, and the frame of a step edge. -/
theorem stepEdgeShiftsInNewWord : Obligations.StepEdgeShiftsInNewWord := by
  intro s any hrun hc hn3 hn5 hp1 hpn r a new
  have hvalid : validRomAddr s.cfgN s.P = true := (validRomAddr_iff _ _).mpr ⟨hn3, hn5, hp1, hpn⟩
  have hpn' : (sampled s).P.toNat ≤ (sampled s).cfgN.toNat := by simpa using hpn
  have hadv := advance_cases hpn'
  have hff := (advance_fsm_of_run (by simpa using hrun) hpn').1
  have hcount := stepCount_advance (by simpa using hp1) hpn'
  simp only [sampled_S, sampled_P, sampled_cfgN, sampled_fsm, hrun] at hadv hff hcount
  refine ⟨_, step_of_run hc hrun, ?_, fun hS => ?_, fun hS hP => ?_, fun hS hP => ?_, ?_, hcount, ?_⟩
  · simp only [stepEdge_W, sampled_cfgN, sampled_P, sampled_S, sampled_W, sampled_M]
    exact stepWindow_valid any _ hvalid s.S s.W s.M
  · obtain ⟨-, hnext⟩ | ⟨hS', -⟩ | ⟨hS', -⟩ := hadv
    · exact hnext
    · omega
    · omega
  · obtain ⟨hS', -⟩ | ⟨-, -, hnext⟩ | ⟨-, hP', -⟩ := hadv
    · omega
    · exact hnext
    · omega
  · obtain ⟨hS', -⟩ | ⟨-, hP', -⟩ | ⟨-, -, hnext⟩ := hadv
    · omega
    · omega
    · exact hnext
  · have hS32 := s.S.isLt
    rw [stepEdge_fsm, hff]
    omega
  · rw [stepEdge_eq, sampled_of_clockNow hc]

/-- Settles O30, by the frame of the feed-forward edge. -/
theorem feedForwardAddsWindow : Obligations.FeedForwardAddsWindow := by
  intro s hff hc
  refine ⟨_, step_of_ff hc hff, fun i => ?_, ?_⟩
  · simp [get_addWords]
  · rw [feedForwardEdge_eq, sampled_of_clockNow hc]

end Sys2Proof.Machine
end

section
/-! SUPPORT. The sequencer and the response (43_compression_core.md R190, R193; 10_state.md R33): what an accepted command
does to FSM and to the status, said once, and what each kind of clock edge shows after it. -/

namespace Sys2Proof.Machine
open Sys2Proof.Claims

/-! ## Accepted words -/

/-- At one edge one word is accepted. -/
theorem State.acceptsNow.unique {s : State} {w w' : BitVec 16} (h : s.acceptsNow w) (h' : s.acceptsNow w') : w' = w := by
  obtain ⟨-, b, rest, hi⟩ := h
  obtain ⟨-, b', rest', hi'⟩ := h'
  rw [hi] at hi'
  cases hi'
  rfl

/-- An accepted word is executed on the sampled state (R192). -/
theorem step_of_acceptsNow {s : State} {w : BitVec 16} (h : s.acceptsNow w) :
    step s = exec (decodeCommand w) (sampled s) := by
  obtain ⟨hf, b, rest, hi⟩ := h
  rw [step_eq]
  simp [nextAction, hi, edgeAction, hf, cmdReady, decode]

/-- A reset edge takes priority over everything (70_reset_and_hazards.md R300). -/
theorem step_of_resetNow {s : State} (h : s.resetNow = true) : step s = .next (resetEdge (sampled s)) := by
  rw [step_eq]
  unfold State.resetNow at h
  rcases hi : s.inputs with _ | ⟨⟨r, v, c, b⟩ | _ | _ | _, rest⟩ <;> simp_all [nextAction, edgeAction]

@[simp] theorem compressStarts_sampled (s : State) : compressStarts (sampled s) ↔ compressStarts s := by
  simp [compressStarts]

@[simp] theorem wordStatus_sampled (s : State) (w : BitVec 16) : wordStatus (sampled s) w = wordStatus s w := by
  simp [wordStatus]

/-! ## The status of a word -/

theorem wordStatus_of_illegal {w : BitVec 16}
    (h : 4 ≤ w.toNat % 16 ∨ (w.toNat % 16 = 1 ∧ 2048 ≤ w.toNat) ∨ (w.toNat % 16 ≠ 1 ∧ 16 ≤ w.toNat)) (s : State) :
    wordStatus s w = .illegalCmd := if_pos h

/-- The INIT word's two fields decide its status (R201, R202). -/
theorem wordStatus_init (s : State) (dw : BitVec 4) (n : BitVec 3) :
    wordStatus s (0#5 ++ n ++ dw ++ 1#4) = if legalDw dw = true ∧ legalN n = true then .ok else .configError := by
  have hdw := dw.isLt
  have hn := n.isLt
  have hopc : (256 * n.toNat + 16 * dw.toNat + 1) % 16 = 1 := by omega
  have hdw' : (256 * n.toNat + 16 * dw.toNat + 1) / 16 % 16 = dw.toNat := by omega
  have hn' : (256 * n.toNat + 16 * dw.toNat + 1) / 256 % 8 = n.toNat := by omega
  have hrsv : ¬ 2048 ≤ 256 * n.toNat + 16 * dw.toNat + 1 := by omega
  simp only [wordStatus, init_word_toNat, hopc, hdw', hn', hrsv, legalDw_iff, legalN_iff]
  by_cases hl : (4 ≤ dw.toNat ∧ dw.toNat ≤ 8) ∧ 3 ≤ n.toNat ∧ n.toNat ≤ 5
  · have hfields : ¬ (dw.toNat < 4 ∨ 8 < dw.toNat ∨ n.toNat < 3 ∨ 5 < n.toNat) := by omega
    simp [hl, hfields]
  · have hfields : dw.toNat < 4 ∨ 8 < dw.toNat ∨ n.toNat < 3 ∨ 5 < n.toNat := by omega
    simp [hl, hfields]

theorem init_word_ne_compress (dw : BitVec 4) (n : BitVec 3) : 0#5 ++ n ++ dw ++ 1#4 ≠ 0x0002#16 := by
  intro h
  have hnat := congrArg BitVec.toNat h
  rw [init_word_toNat] at hnat
  change _ = 2 at hnat
  omega

/-- An accepted word is a COMPRESS that starts, or it completes at once: it shows a response with the status of the word
and leaves FSM as it is. -/
theorem exec_command_starts_or_completes {w : BitVec 16} {s t : State} (h : exec (decodeCommand w) s = .next t) :
    (w = 0x0002#16 ∧ compressStarts s ∧ t = startCompress s) ∨
    (¬ (w = 0x0002#16 ∧ compressStarts s) ∧ t.rspValid = true ∧ t.lastStatus = wordStatus s w ∧ t.fsm = s.fsm) := by
  obtain ⟨rfl, he⟩ | ⟨dw, n, rfl, hdw, hn, he⟩ | ⟨dw, n, rfl, hl, he⟩ | ⟨rfl, hp, he⟩ | ⟨rfl, hp, hf, he⟩ |
    ⟨rfl, hp, hf, he⟩ | ⟨rfl, hp, he⟩ | ⟨rfl, hp, he⟩ | ⟨hw, hill, he⟩ := exec_command_cases w s <;>
    cases he.symm.trans h
  · exact .inr ⟨by simp, rfl, by simp [wordStatus], rfl⟩
  · exact .inr ⟨fun h2 => init_word_ne_compress dw n h2.1, rfl, by simp [wordStatus_init, hdw, hn], rfl⟩
  · exact .inr ⟨fun h2 => init_word_ne_compress dw n h2.1, rfl, by rw [wordStatus_init, if_neg hl]; rfl, rfl⟩
  · exact .inr ⟨by simp [compressStarts, hp], rfl, by simp [wordStatus, hp], rfl⟩
  · exact .inr ⟨by simp [compressStarts, hf], rfl, by simp [wordStatus, hp, hf], rfl⟩
  · exact .inl ⟨rfl, ⟨hp, hf⟩, rfl⟩
  · exact .inr ⟨by simp, rfl, by simp [wordStatus, hp], rfl⟩
  · exact .inr ⟨by simp, rfl, by simp [wordStatus, hp], rfl⟩
  · exact .inr ⟨fun h2 => hw h2.1, rfl, (wordStatus_of_illegal hill s).symm, rfl⟩

/-- The same for a step that accepts the word, said of the state before the ports are sampled. -/
theorem step_starts_or_completes {w : BitVec 16} {s t : State} (ha : s.acceptsNow w) (h : step s = .next t) :
    (w = 0x0002#16 ∧ compressStarts s ∧ t = startCompress (sampled s)) ∨
    (¬ (w = 0x0002#16 ∧ compressStarts s) ∧ t.rspValid = true ∧ t.lastStatus = wordStatus s w ∧ t.fsm = .idle) := by
  rw [step_of_acceptsNow ha] at h
  simpa [ha.1] using exec_command_starts_or_completes h

/-! ## FSM -/

/-- What a clock edge does while the core is idle: nothing is accepted, or one word is. -/
theorem step_of_idle {s t : State} (hc : s.clockNow = true) (hf : s.fsm = .idle) (h : step s = .next t) :
    ((∀ w, ¬ s.acceptsNow w) ∧ t = quietEdge (sampled s)) ∨ ∃ w, s.acceptsNow w := by
  obtain ⟨-, hc', -⟩ | ⟨-, -, hf', -⟩ | ⟨-, -, hf', -⟩ | ⟨-, -, -, hq⟩ | ⟨w, -, -, ha, -⟩ |
    ⟨_, _, _, _, hc', -, -⟩ := step_cases h
  · simp [hc] at hc'
  · simp [hf] at hf'
  · simp [hf] at hf'
  · exact .inl hq
  · exact .inr ⟨w, ha⟩
  · simp [hc] at hc'

/-- An idle core goes to RUN by a COMPRESS that starts and by nothing else (R190). -/
theorem step_fsm_of_idle {s t : State} (hc : s.clockNow = true) (hf : s.fsm = .idle) (h : step s = .next t) :
    (t.fsm = .run ↔ s.acceptsNow 0x0002#16 ∧ compressStarts s) ∧ (t.fsm = .run ∨ t.fsm = .idle) := by
  obtain ⟨hna, rfl⟩ | ⟨w, ha⟩ := step_of_idle hc hf h
  · simp [hf, hna]
  · obtain ⟨rfl, hst, rfl⟩ | ⟨hns, -, -, hidle⟩ := step_starts_or_completes ha h
    · simp [ha, hst]
    · refine ⟨⟨fun hr => by simp [hidle] at hr, fun ⟨h2, hst⟩ => ?_⟩, .inr hidle⟩
      exact absurd ⟨(ha.unique h2).symm, hst⟩ hns

/-- Settles O31, by the edge that each state of the sequencer takes; the control invariant keeps P at CFG_N or below. -/
theorem sequencerTransitions : Obligations.SequencerTransitions := by
  intro s t hinv h
  refine ⟨fun hc hidle => step_fsm_of_idle hc hidle h, fun hc hrun => ?_, fun hc hff => ?_, fun hr => ?_⟩
  · cases h.symm.trans (step_of_run hc hrun)
    obtain ⟨-, -, -, hP⟩ := hinv.busyInRange (by simp [hrun])
    have hadv := advance_fsm_of_run (s := sampled s) (by simpa using hrun) (by simpa using hP)
    simpa [← BitVec.toNat_inj] using hadv
  · cases h.symm.trans (step_of_ff hc hff)
    rfl
  · cases h.symm.trans (step_of_resetNow hr)
    rfl

/-! ## The response -/

/-- The next step is a completion edge (R193): the feed-forward edge, or the acceptance of a command that is not a COMPRESS
that starts. -/
def completionEdge (s : State) : Prop :=
  s.clockNow = true ∧ (s.fsm = .ff ∨ ∃ w, s.acceptsNow w ∧ ¬ (w = 0x0002#16 ∧ compressStarts s))

/-- A clock edge completes a command and shows the response, or it completes none and keeps LAST_STATUS (R193). -/
theorem step_completes_or_not {s t : State} (hc : s.clockNow = true) (h : step s = .next t) :
    (completionEdge s ∧ t.rspValid = true) ∨
    (¬ completionEdge s ∧ t.rspValid = false ∧ t.lastStatus = s.lastStatus) := by
  cases hf : s.fsm with
  | run =>
    cases h.symm.trans (step_of_run hc hf)
    exact .inr ⟨by simp [completionEdge, State.acceptsNow, hf], by simp⟩
  | ff =>
    cases h.symm.trans (step_of_ff hc hf)
    exact .inl ⟨⟨hc, .inl hf⟩, rfl⟩
  | idle =>
    obtain ⟨hna, rfl⟩ | ⟨w, ha⟩ := step_of_idle hc hf h
    · exact .inr ⟨by simp [completionEdge, hf, hna], by simp⟩
    · obtain ⟨rfl, hst, rfl⟩ | ⟨hns, hv, -, -⟩ := step_starts_or_completes ha h
      · refine .inr ⟨?_, by simp⟩
        rintro ⟨-, hff | ⟨w, ha', hns⟩⟩
        · simp [hf] at hff
        · exact hns ⟨ha.unique ha', hst⟩
      · exact .inl ⟨⟨hc, .inr ⟨w, ha, hns⟩⟩, hv⟩

theorem clockNow_of_resetNow {s : State} (hr : s.resetNow = true) : s.clockNow = false := by
  cases hc : s.clockNow with
  | false => rfl
  | true => obtain hi | ⟨_, _, _, _, hi⟩ := inputs_of_clockNow hc <;> simp [State.resetNow, hi] at hr

/-- After a clock edge, with or without reset, RSP_VALID tells whether it was a completion edge (10_state.md R33). -/
theorem step_rspValid_iff {s t : State} (hedge : s.clockNow = true ∨ s.resetNow = true) (h : step s = .next t) :
    t.rspValid = true ↔ completionEdge s := by
  obtain hc | hr := hedge
  · obtain ⟨hcomp, hv⟩ | ⟨hcomp, hv, -⟩ := step_completes_or_not hc h <;> simp [hcomp, hv]
  · cases h.symm.trans (step_of_resetNow hr)
    simp [completionEdge, clockNow_of_resetNow hr]

theorem step_errSticky_of_clockNow {s t : State} (hc : s.clockNow = true) (h : step s = .next t) :
    t.errSticky = stickyAfter s t := by
  obtain ⟨-, hc', -⟩ | ⟨-, -, he⟩ | ⟨-, hc', -⟩ := step_errSticky h
  · simp [hc] at hc'
  · exact he
  · simp [hc] at hc'

theorem Status.isError_eq (st : Status) : st.isError = decide (st ≠ .ok) := by
  rw [Bool.eq_iff_iff, Status.isError_iff, decide_eq_true_iff]

/-- Settles O32, by the completion edges and the status of the word that completes there. -/
theorem responseExactlyAfterCompletion : Obligations.ResponseExactlyAfterCompletion := by
  intro s t hedge h
  have hiff := step_rspValid_iff hedge h
  refine ⟨hiff, fun hc hff => ?_, fun w ha hns => ?_, fun hv => ?_, fun hc hv => ?_⟩
  · cases h.symm.trans (step_of_ff hc hff)
    rfl
  · obtain ⟨hw, hst, -⟩ | ⟨-, -, hstatus, -⟩ := step_starts_or_completes ha h
    · exact absurd ⟨hw, hst⟩ hns
    · exact hstatus
  · obtain ⟨hc, -⟩ := hiff.mp hv
    rw [step_errSticky_of_clockNow hc h, stickyAfter, hv, Bool.true_and, Status.isError_eq]
  · obtain ⟨-, hv'⟩ | ⟨-, -, hkept⟩ := step_completes_or_not hc h
    · simp [hv] at hv'
    · exact ⟨hkept, by simp [step_errSticky_of_clockNow hc h, stickyAfter, hv]⟩

end Sys2Proof.Machine
end

section
/-! SUPPORT. The output ports (10_state.md R36, 43_compression_core.md R191). -/

namespace Sys2Proof.Machine

theorem cmdReady_iff (rst : Bool) (s : State) : cmdReady rst s = true ↔ s.fsm = .idle ∧ rst = false := by
  simp [cmdReady]

/-- Four times CFG_DW fits in the six bits of `digest_len`. -/
theorem digestLenPort_toNat {s : State} (h : s.fin = true) : (digestLenPort s).toNat = 4 * s.cfgDw.toNat := by
  have hdw := s.cfgDw.isLt
  simp only [digestLenPort, h, if_true, BitVec.toNat_mul, BitVec.toNat_setWidth, BitVec.toNat_ofNat]
  omega

/-- Settles O53, port by port. -/
theorem outputPortsShowRegisters : Obligations.OutputPortsShowRegisters := by
  intro s rst
  refine ⟨cmdReady_iff rst s, rfl, rfl, fun hp => ?_, rfl, digestLenPort_toNat, fun hf => ?_, fun hf => ?_⟩
  · simp [stateOutPort, hp]
  · simp [digestLenPort, hf]
  · simp [digestOutPort, hf]

end Sys2Proof.Machine
end

section
/-! SUPPORT. The tailor driven alone at the digest lengths 8 to 4 (30_encoding.md R89, 44_output_tailor.md R241 to R245):
which instruction each length is, and the state each of the five answers. -/

namespace Sys2Proof.Machine

/-! ## The five lengths -/

@[simp] theorem decodeDw_eight : decodeDw 8#4 = .tailorDw8 := rfl
@[simp] theorem decodeDw_seven : decodeDw 7#4 = .tailorDw7 := rfl
@[simp] theorem decodeDw_six : decodeDw 6#4 = .tailorDw6 := rfl
@[simp] theorem decodeDw_five : decodeDw 5#4 = .tailorDw5 := rfl
@[simp] theorem decodeDw_four : decodeDw 4#4 = .tailorDw4 := rfl

/-! ## The five tailorings: the output wires get the tailored input words, the rest of the state is kept -/

@[simp] theorem exec_tailorDw8 (s : State) : exec .tailorDw8 s = .next { s with tailorOut := tailor8 s.tailorIn } := rfl
@[simp] theorem exec_tailorDw7 (s : State) : exec .tailorDw7 s = .next { s with tailorOut := tailor7 s.tailorIn } := rfl
@[simp] theorem exec_tailorDw6 (s : State) : exec .tailorDw6 s = .next { s with tailorOut := tailor6 s.tailorIn } := rfl
@[simp] theorem exec_tailorDw5 (s : State) : exec .tailorDw5 s = .next { s with tailorOut := tailor5 s.tailorIn } := rfl
@[simp] theorem exec_tailorDw4 (s : State) : exec .tailorDw4 s = .next { s with tailorOut := tailor4 s.tailorIn } := rfl

/-- Settles O16, by the length and the answer of each tailoring: `tailor8` to `tailor4` are R241 to R245 as the spec prints
them, with the zeros of R246 written in, so each answer is the stated one once the tailoring is unfolded. -/
theorem tailorAloneComputesDigestWords : Obligations.TailorAloneComputesDigestWords := by
  intro s
  refine ⟨⟨decodeDw_eight, decodeDw_seven, decodeDw_six, decodeDw_five, decodeDw_four⟩, ?_, ?_, ?_, ?_, ?_⟩
  · rw [exec_tailorDw8, tailor8]
  · rw [exec_tailorDw7, tailor7]
  · rw [exec_tailorDw6, tailor6]
  · rw [exec_tailorDw5, tailor5]
  · rw [exec_tailorDw4, tailor4]

end Sys2Proof.Machine
end

section
/-! SUPPORT. The order of the checks for an accepted command word (60_exceptions.md R276): the fields of the INIT word as
numbers, and the answer of each word read against the chain of checks. -/

namespace Sys2Proof.Machine

/-- The INIT word has OPC 1, its two operands in their fields, and no reserved bit (30_encoding.md R80 to R82). -/
theorem init_word_fields (dw : BitVec 4) (n : BitVec 3) :
    (0#5 ++ n ++ dw ++ 1#4).toNat % 16 = 1 ∧ (0#5 ++ n ++ dw ++ 1#4).toNat / 16 % 16 = dw.toNat ∧
      (0#5 ++ n ++ dw ++ 1#4).toNat / 256 % 8 = n.toNat ∧ (0#5 ++ n ++ dw ++ 1#4).toNat < 2048 := by
  have hdw := dw.isLt
  have hn := n.isLt
  rw [init_word_toNat]
  omega

/-- The cause of CONFIG_ERROR (60_exceptions.md R271): a field outside the legal range (30_encoding.md R82). -/
theorem illegal_field_iff (dw : BitVec 4) (n : BitVec 3) :
    (dw.toNat < 4 ∨ 8 < dw.toNat ∨ n.toNat < 3 ∨ 5 < n.toNat) ↔ ¬ (legalDw dw = true ∧ legalN n = true) := by
  rw [legalDw_iff, legalN_iff]
  omega

/-- Settles O33, by the answer of each accepted word: a word with a literal value falls through the chain to its own
command's branch, an INIT word to the check of its two fields, and an illegal word stops at the first check. -/
theorem statusFollowsCheckOrder : Obligations.StatusFollowsCheckOrder := by
  intro s w
  obtain ⟨rfl, he⟩ | ⟨dw, n, rfl, hdw, hn, he⟩ | ⟨dw, n, rfl, hl, he⟩ | ⟨rfl, hp, he⟩ | ⟨rfl, hp, hf, he⟩ |
    ⟨rfl, hp, hf, he⟩ | ⟨rfl, hp, he⟩ | ⟨rfl, hp, he⟩ | ⟨-, hill, he⟩ := exec_command_cases w s <;>
    refine ⟨_, he, ?_⟩
  · simp
  · obtain ⟨hopc, hdwField, hnField, hrsv⟩ := init_word_fields dw n
    simp [hopc, hdwField, hnField, hrsv, illegal_field_iff, hdw, hn]
  · obtain ⟨hopc, hdwField, hnField, hrsv⟩ := init_word_fields dw n
    have hfields := (illegal_field_iff dw n).mpr hl
    simp [hopc, hdwField, hnField, hrsv, hfields]
  · simp [hp]
  · simp [hp, hf]
  · simp [hp, hf]
  · simp [hp]
  · simp [hp]
  · exact (if_pos hill).mpr rfl

end Sys2Proof.Machine
end

section
/-! SUPPORT. Reset and the busy core (70_reset_and_hazards.md R300, R301, R320, R321): what a reset edge leaves, whatever
the core was doing, and that the command port does not reach a core that is busy. -/

namespace Sys2Proof.Machine

/-! ## The reset edge -/

/-- What stands at the head of the events at a reset edge. -/
theorem inputs_of_resetNow {s : State} (h : s.resetNow = true) :
    ∃ v c b rest, s.inputs = .edge true v c b :: rest := by
  unfold State.resetNow at h
  rcases hi : s.inputs with _ | ⟨⟨r, v, c, b⟩ | _ | _ | _, rest⟩ <;> simp_all

/-- At a reset edge the head of the events is used up. -/
theorem sampled_inputs_of_resetNow {s : State} (h : s.resetNow = true) : (sampled s).inputs = s.inputs.tail := by
  obtain ⟨v, c, b, rest, hi⟩ := inputs_of_resetNow h
  rw [sampled_edge hi, hi]
  rfl

/-- With `rst = 1` no command can be accepted, whatever FSM is (43_compression_core.md R191). -/
@[simp] theorem cmdReady_rst (s : State) : cmdReady true s = false := by
  simp [cmdReady]

/-- Settles O26, by the priority of reset over every other action and the values the reset edge writes. -/
theorem resetEdgeSetsControlRegisters : Obligations.ResetEdgeSetsControlRegisters := by
  intro s hr
  have hready : cmdReady false (resetEdge (sampled s)) = true := (cmdReady_iff _ _).mpr ⟨rfl, rfl⟩
  exact ⟨_, step_of_resetNow hr, rfl, rfl, rfl, rfl, rfl, rfl, sampled_inputs_of_resetNow hr, cmdReady_rst s, hready⟩

/-! ## The busy core -/

/-- A step edge does not read the `blk` port: the words that stand there stay there and reach no register (R321). -/
theorem stepEdge_setBlkPort (s : State) (b : Vec32 Word) :
    stepEdge { s with blkPort := b } = { stepEdge s with blkPort := b } := by
  have hadv : advance { s with blkPort := b } = { advance s with blkPort := b } := by
    unfold advance
    split_ifs <;> rfl
  unfold stepEdge
  rw [hadv]
  rfl

/-- The feed-forward edge does not read the `blk` port either (R321). -/
theorem feedForwardEdge_setBlkPort (s : State) (b : Vec32 Word) :
    feedForwardEdge { s with blkPort := b } = { feedForwardEdge s with blkPort := b } := rfl

/-- A busy core offers no acceptance, with or without reset (43_compression_core.md R191). -/
theorem cmdReady_of_busy {s : State} (hbusy : s.fsm ≠ .idle) (rst : Bool) : cmdReady rst s = false := by
  simp [cmdReady, hbusy]

/-- An event with `rst = 0` on the core's ports is a clock edge without reset. -/
theorem clockNow_edge (s : State) (v : Bool) (w : BitVec 16) (b : Vec32 Word) (rest : List Event) :
    ({ s with inputs := .edge false v w b :: rest } : State).clockNow = true := rfl

theorem Fsm.run_or_ff_of_ne_idle {f : Fsm} (h : f ≠ .idle) : f = .run ∨ f = .ff := by
  cases f with
  | idle => exact absurd rfl h
  | run => exact .inl rfl
  | ff => exact .inr rfl

/-- Noninterference of the command port while FSM is not IDLE (R320, R321): one state `u` is the answer to whatever
stands on `cmd_valid`, `cmd` and `blk`, but for the words on the `blk` port themselves. -/
theorem step_of_busy_ignores_command_port {s : State} (hbusy : s.fsm ≠ .idle) (rest : List Event) :
    ∃ u : State, ∀ v w b, step { s with inputs := .edge false v w b :: rest } = .next { u with blkPort := b } := by
  obtain hrun | hff := Fsm.run_or_ff_of_ne_idle hbusy
  · refine ⟨stepEdge (tick { s with inputs := rest }), fun v w b => ?_⟩
    rw [step_of_run (clockNow_edge s v w b rest) hrun, sampled_edge rfl]
    exact congrArg _ (stepEdge_setBlkPort (tick { s with inputs := rest }) b)
  · refine ⟨feedForwardEdge (tick { s with inputs := rest }), fun v w b => ?_⟩
    rw [step_of_ff (clockNow_edge s v w b rest) hff, sampled_edge rfl]
    exact congrArg _ (feedForwardEdge_setBlkPort (tick { s with inputs := rest }) b)

/-- Settles O25, by the one answer that a busy core gives to every word on its command port. -/
theorem busyCoreIgnoresCommandPort : Obligations.BusyCoreIgnoresCommandPort := by
  intro s v v' w w' b b' b0 rest hbusy
  obtain ⟨u, hu⟩ := step_of_busy_ignores_command_port hbusy rest
  exact ⟨_, _, hu v w b, hu v' w' b', rfl, cmdReady_of_busy hbusy false⟩

end Sys2Proof.Machine
end

section
/-! SUPPORT. The control invariant (10_state.md section 3): what it needs of a state, and that each kind of edge keeps
it. -/

namespace Sys2Proof.Machine

/-! ## Every step answers -/

/-- An accepted command word answers a next state (60_exceptions.md R277). -/
theorem exec_command_answers (w : BitVec 16) (s : State) : ∃ t, exec (decodeCommand w) s = .next t := by
  obtain ⟨-, he⟩ | ⟨_, _, -, -, -, he⟩ | ⟨_, _, -, -, he⟩ | ⟨-, -, he⟩ | ⟨-, -, -, he⟩ | ⟨-, -, -, he⟩ |
    ⟨-, -, he⟩ | ⟨-, -, he⟩ | ⟨-, -, he⟩ := exec_command_cases w s <;> exact ⟨_, he⟩

/-- Settles O39, by the action of the step: an edge answers by itself, and so does every instruction a step can run. -/
theorem everyStepAnswersNextState : Obligations.EveryStepAnswersNextState := by
  intro s
  rw [step_eq]
  obtain ⟨ha, -⟩ | ⟨ha, -⟩ | ⟨ha, -⟩ | ⟨ha, -⟩ | ⟨w, ha, -⟩ | ⟨f, _, _, ha, -⟩ | ⟨d, _, _, ha, -⟩ |
    ⟨a, _, ha, -⟩ := nextAction_cases s <;> rw [ha]
  · exact ⟨_, rfl⟩
  · exact ⟨_, rfl⟩
  · exact ⟨_, rfl⟩
  · exact ⟨_, rfl⟩
  · exact exec_command_answers w _
  · obtain ⟨_, _, he⟩ := exec_fsel_cases f (sampled s)
    exact ⟨_, he⟩
  · obtain ⟨_, _, he⟩ := exec_dw_cases d (sampled s)
    exact ⟨_, he⟩
  · obtain ⟨_, _, he⟩ := exec_romAddr_cases a (sampled s)
    exact ⟨_, he⟩

/-! ## The control invariant, edge by edge -/

/-- Sampling the ports writes no control register. -/
theorem ControlInv.sampled {s : State} (h : ControlInv s) : ControlInv (sampled s) := by
  rw [sampled_frame]
  exact ⟨h.cfgLegal, h.finConfigured, h.busyInRange, h.ffAtEnd, h.errorIsSticky, h.responseIdle⟩

/-- What the invariant asks of an idle core. -/
theorem controlInv_of_idle {s : State} (hidle : s.fsm = .idle)
    (hcfg : s.phase = .configured → 3 ≤ s.cfgN.toNat ∧ s.cfgN.toNat ≤ 5 ∧ 4 ≤ s.cfgDw.toNat ∧ s.cfgDw.toNat ≤ 8)
    (hfin : s.fin = true → s.phase = .configured) (herr : s.lastStatus ≠ .ok → s.errSticky = true) : ControlInv s :=
  ⟨hcfg, hfin, fun hb => absurd hidle hb, by simp [hidle], herr, fun _ => hidle⟩

/-- The control registers' values after a reset edge make the invariant hold, whatever the open registers hold. -/
theorem controlInv_resetEdge (s : State) : ControlInv (resetEdge s) :=
  controlInv_of_idle rfl (by simp) (by simp) (by simp)

theorem ControlInv.noResponse {s : State} (h : ControlInv s) : ControlInv (noResponse s) :=
  ⟨h.cfgLegal, h.finConfigured, h.busyInRange, h.ffAtEnd, h.errorIsSticky, by simp⟩

/-- A completion in an idle core: the status goes to ERR_STICKY when it is an error (10_state.md R32). -/
theorem ControlInv.complete {s : State} (h : ControlInv s) (hidle : s.fsm = .idle) (st : Status) :
    ControlInv (complete st s) where
  cfgLegal := h.cfgLegal
  finConfigured := h.finConfigured
  busyInRange := h.busyInRange
  ffAtEnd := h.ffAtEnd
  errorIsSticky hst := by simp [(Status.isError_iff st).mpr hst]
  responseIdle _ := hidle

/-- The step edge keeps (P, S) in range and reaches FF only after step (CFG_N, 31) (R206). -/
theorem ControlInv.stepEdge {s : State} (h : ControlInv s) (hrun : s.fsm = .run) : ControlInv (stepEdge s) := by
  obtain ⟨hp, hf, hP1, hPn⟩ := h.busyInRange (by simp [hrun])
  have hadv := advance_cases hPn
  refine ⟨by simpa using h.cfgLegal, by simpa using h.finConfigured, fun _ => ?_, fun hff => ?_,
    by simpa using h.errorIsSticky, by simp⟩
  · simp only [stepEdge_phase, stepEdge_fin, stepEdge_P, stepEdge_cfgN]
    refine ⟨hp, hf, ?_⟩
    obtain ⟨-, -, hP', -⟩ | ⟨-, hlt, -, hP', -⟩ | ⟨-, -, -, hP', -⟩ := hadv <;> rw [hP'] <;> omega
  · obtain ⟨-, -, -, hF⟩ | ⟨-, -, -, -, hF⟩ | ⟨hS, hPeq, hS', hP', -⟩ := hadv
    · simp [hF, hrun] at hff
    · simp [hF, hrun] at hff
    · simp [hS', hP', hS, BitVec.eq_of_toNat_eq hPeq]

/-- The feed-forward edge makes the core idle (R208). -/
theorem ControlInv.feedForwardEdge {s : State} (h : ControlInv s) : ControlInv (feedForwardEdge s) :=
  ControlInv.complete (s := { s with H := addWords s.H s.W, fsm := .idle })
    ⟨h.cfgLegal, h.finConfigured, by simp, by simp, h.errorIsSticky, by simp⟩ rfl .ok

/-- A COMPRESS that starts is configured and not finalized, and begins at (1, 0) (R203). -/
theorem ControlInv.startCompress {s : State} (h : ControlInv s) (hp : s.phase = .configured) (hf : s.fin = false) :
    ControlInv (startCompress s) where
  cfgLegal := h.cfgLegal
  finConfigured := h.finConfigured
  busyInRange _ := by
    obtain ⟨hn3, -⟩ := h.cfgLegal hp
    exact ⟨hp, hf, le_rfl, le_trans (show 1 ≤ 3 by decide) hn3⟩
  ffAtEnd := by simp
  errorIsSticky := h.errorIsSticky
  responseIdle := by simp

/-- Every command accepted by an idle core keeps the control invariant. -/
theorem ControlInv.exec_command {w : BitVec 16} {s t : State} (h : ControlInv s) (hidle : s.fsm = .idle)
    (he : exec (decodeCommand w) s = .next t) : ControlInv t := by
  obtain ⟨-, he'⟩ | ⟨dw, n, -, hdw, hn, he'⟩ | ⟨_, _, -, -, he'⟩ | ⟨-, -, he'⟩ | ⟨-, -, -, he'⟩ | ⟨-, hp, hf, he'⟩ |
    ⟨-, -, he'⟩ | ⟨-, hp, he'⟩ | ⟨-, -, he'⟩ := exec_command_cases w s <;> cases he'.symm.trans he
  · exact h.complete hidle _
  · obtain ⟨hdw4, hdw8⟩ := (legalDw_iff dw).mp hdw
    obtain ⟨hn3, hn5⟩ := (legalN_iff n).mp hn
    exact controlInv_of_idle hidle (fun _ => ⟨hn3, hn5, hdw4, hdw8⟩) (fun _ => rfl) (by simp)
  · exact controlInv_of_idle hidle (by simp) (by simp) (by simp [Status.isError])
  · exact h.complete hidle _
  · exact h.complete hidle _
  · exact h.startCompress hp hf
  · exact h.complete hidle _
  · exact controlInv_of_idle hidle h.cfgLegal (fun _ => hp) (by simp)
  · exact h.complete hidle _

/-- Settles O40, by the inversion of a step and the invariant after each kind of edge. -/
theorem controlInvariantKept : Obligations.ControlInvariantKept := by
  intro s t hinv h
  have hinv' := hinv.sampled
  obtain ⟨-, -, rfl⟩ | ⟨-, -, hrun, rfl⟩ | ⟨-, -, -, rfl⟩ | ⟨-, -, -, -, rfl⟩ | ⟨w, -, -, ha, he⟩ |
    ⟨_, _, _, _, -, -, rfl⟩ := step_cases h
  · exact controlInv_resetEdge _
  · exact hinv'.stepEdge (by simpa using hrun)
  · exact hinv'.feedForwardEdge
  · exact hinv'.noResponse
  · exact hinv'.exec_command (by simpa using ha.1) he
  · exact ⟨hinv'.cfgLegal, hinv'.finConfigured, hinv'.busyInRange, hinv'.ffAtEnd, hinv'.errorIsSticky,
      hinv'.responseIdle⟩

end Sys2Proof.Machine
end

section
/-! SUPPORT. The digest invariant and the window invariant (10_state.md R25; 43_compression_core.md R206, R207, R212):
D is the digest of H while FIN = 1, and W is the window after as many steps as the position counts. -/

namespace Sys2Proof.Machine

/-! ## D while FIN = 1 -/

theorem digestInv_of_not_fin {s : State} (h : s.fin = false) : DigestInv s := by
  simp [DigestInv, h]

/-- The digest invariant is about FIN, D, CFG_DW and H only. -/
theorem DigestInv.of_same {s t : State} (h : DigestInv s) (hf : t.fin = s.fin) (hD : t.D = s.D)
    (hdw : t.cfgDw = s.cfgDw) (hH : t.H = s.H) : DigestInv t := by
  rwa [DigestInv, hf, hD, hdw, hH]

/-- An accepted command keeps the digest invariant: INIT clears FIN, FINALIZE latches the digest of the H that stands,
and the others write none of the four registers. -/
theorem DigestInv.exec_command {w : BitVec 16} {s t : State} (hc : ControlInv s) (h : DigestInv s)
    (he : exec (decodeCommand w) s = .next t) : DigestInv t := by
  obtain ⟨-, he'⟩ | ⟨_, _, -, -, -, he'⟩ | ⟨_, _, -, -, he'⟩ | ⟨-, -, he'⟩ | ⟨-, -, -, he'⟩ | ⟨-, -, -, he'⟩ |
    ⟨-, -, he'⟩ | ⟨-, hp, he'⟩ | ⟨-, -, he'⟩ := exec_command_cases w s <;> cases he'.symm.trans he
  case inr.inl | inr.inr.inl => exact digestInv_of_not_fin rfl
  case inr.inr.inr.inr.inr.inr.inr.inl =>
    obtain ⟨-, -, hdw4, hdw8⟩ := hc.cfgLegal hp
    exact fun _ any => latchedDigest_any s.any any hdw4 hdw8 s.H
  all_goals exact h.of_same rfl rfl rfl rfl

/-- Settles O41, by the inversion of a step: no feed-forward edge meets FIN = 1, and no other edge without a command
writes FIN, D, CFG_DW or H. -/
theorem digestInvariantKept : Obligations.DigestInvariantKept := by
  intro s t hc hd h
  have hd' : DigestInv (sampled s) := hd.of_same (by simp) (by simp) (by simp) (by simp)
  obtain ⟨-, -, rfl⟩ | ⟨-, -, -, rfl⟩ | ⟨-, -, hff, rfl⟩ | ⟨-, -, -, -, rfl⟩ | ⟨w, -, -, -, he⟩ |
    ⟨_, _, _, _, -, -, rfl⟩ := step_cases h
  · exact digestInv_of_not_fin rfl
  · exact hd'.of_same (by simp) (by simp) (by simp) (by simp)
  · obtain ⟨-, hfin, -⟩ := hc.busyInRange (by simp [hff])
    exact digestInv_of_not_fin (by simpa using hfin)
  · exact hd'.of_same rfl rfl rfl rfl
  · exact hd'.exec_command hc.sampled he
  · exact hd'.of_same rfl rfl rfl rfl

/-! ## The count of steps -/

/-- How many steps of its COMPRESS a busy core has done: the position of a step still to come in RUN, all of them in FF
(70_reset_and_hazards.md R311). -/
def stepsDone (s : State) (g : Nat) : Prop :=
  (s.fsm = .run ∧ 1 ≤ s.P.toNat ∧ s.P.toNat ≤ s.cfgN.toNat ∧ g = 32 * (s.P.toNat - 1) + s.S.toNat) ∨
  (s.fsm = .ff ∧ g = 32 * s.cfgN.toNat)

/-- With the control invariant a busy core has done some number of steps. -/
theorem ControlInv.stepsDone_of_run {s : State} (h : ControlInv s) (hrun : s.fsm = .run) :
    stepsDone s (32 * (s.P.toNat - 1) + s.S.toNat) := by
  obtain ⟨-, -, hP1, hPn⟩ := h.busyInRange (by simp [hrun])
  exact .inl ⟨hrun, hP1, hPn, rfl⟩

theorem stepsDone_busy {s : State} {g : Nat} (h : stepsDone s g) : s.fsm ≠ .idle := by
  obtain ⟨hf, -⟩ | ⟨hf, -⟩ := h <;> simp [hf]

/-- The core is in FF exactly when all steps are done. -/
theorem stepsDone_fsm {s : State} {g : Nat} (h : stepsDone s g) :
    g ≤ 32 * s.cfgN.toNat ∧ (s.fsm = .ff ↔ g = 32 * s.cfgN.toNat) ∧ (s.fsm = .run ↔ g < 32 * s.cfgN.toNat) := by
  have hS := s.S.isLt
  obtain ⟨hf, hP1, hPn, hg⟩ | ⟨hf, hg⟩ := h
  · simp only [hf, reduceCtorEq, false_iff, true_iff]
    omega
  · simp [hf, hg]

/-- A step edge does one step more. -/
theorem stepsDone_stepEdge {s : State} {g : Nat} (h : stepsDone s g) (hrun : s.fsm = .run) :
    stepsDone (stepEdge s) (g + 1) := by
  obtain ⟨-, hP1, hPn, rfl⟩ | ⟨hf, -⟩ := h
  · simp only [stepsDone, stepEdge_fsm, stepEdge_P, stepEdge_S, stepEdge_cfgN]
    obtain ⟨-, hS', hP', hF⟩ | ⟨hS, hlt, hS', hP', hF⟩ | ⟨hS, hPeq, -, -, hF⟩ := advance_cases hPn
    · rw [hF, hP', hS']
      exact .inl ⟨hrun, hP1, hPn, rfl⟩
    · rw [hF, hP', hS']
      exact .inl ⟨hrun, by omega, by omega, by omega⟩
    · exact .inr ⟨hF, by omega⟩
  · simp [hrun] at hf

/-! ## The window after the steps done -/

/-- The window invariant at a known number of steps: W is the window after them. -/
def windowIs (s : State) (g : Nat) : Prop := ∀ any, s.W = windowAfter any s.cfgN s.M s.H g

/-- What is at stake in the window invariant is one equation, at the number of steps done. -/
theorem windowInv_iff {s : State} {g : Nat} (h : stepsDone s g) : WindowInv s ↔ windowIs s g := by
  obtain ⟨hf, -, -, rfl⟩ | ⟨hf, rfl⟩ := h
  · exact ⟨fun hw => hw.running hf, fun hw => ⟨fun _ => hw, by simp [hf]⟩⟩
  · exact ⟨fun hw => hw.finished hf, fun hw => ⟨by simp [hf], fun _ => hw⟩⟩

/-- An idle core has no window to keep. -/
theorem windowInv_of_idle {s : State} (h : s.fsm = .idle) : WindowInv s :=
  ⟨by simp [h], by simp [h]⟩

/-- The window invariant is about FSM, the position, CFG_N, M, H and W only. -/
theorem WindowInv.of_same {s t : State} (h : WindowInv s) (hf : t.fsm = s.fsm) (hP : t.P = s.P) (hS : t.S = s.S)
    (hn : t.cfgN = s.cfgN) (hM : t.M = s.M) (hH : t.H = s.H) (hW : t.W = s.W) : WindowInv t := by
  constructor
  · rw [hf, hP, hS, hn, hM, hH, hW]
    exact h.running
  · rw [hf, hn, hM, hH, hW]
    exact h.finished

/-- A COMPRESS begins with no step done and W = H (R203). -/
theorem windowIs_startCompress (s : State) : windowIs (startCompress s) 0 := fun _ => rfl

theorem stepsDone_startCompress {s : State} (h3 : 3 ≤ s.cfgN.toNat) : stepsDone (startCompress s) 0 :=
  .inl ⟨rfl, le_rfl, le_trans (show 1 ≤ 3 by decide) h3, rfl⟩

/-- Global step `32 * (P - 1) + S` is step S of pass P (70_reset_and_hazards.md R311). -/
theorem windowAfter_succ_at (any : AnyValue) (n : BitVec 3) (M : Vec32 Word) (W : Vec8 Word) {p : BitVec 3}
    (k : BitVec 5) (hp : 1 ≤ p.toNat) :
    windowAfter any n M W (32 * (p.toNat - 1) + k.toNat + 1) =
      stepWindow any n p k (windowAfter any n M W (32 * (p.toNat - 1) + k.toNat)) M := by
  have hk := k.isLt
  have hpass : (32 * (p.toNat - 1) + k.toNat) / 32 + 1 = p.toNat := by omega
  have hstep : (32 * (p.toNat - 1) + k.toNat) % 32 = k.toNat := by omega
  rw [windowAfter, hpass, hstep, BitVec.ofNat_toNat, BitVec.ofNat_toNat, BitVec.setWidth_eq, BitVec.setWidth_eq]

/-- A step edge at a legal pass count takes the window to the one after one step more. -/
theorem windowIs_stepEdge {s : State} {g : Nat} (hg : stepsDone s g) (hrun : s.fsm = .run) (h3 : 3 ≤ s.cfgN.toNat)
    (h5 : s.cfgN.toNat ≤ 5) (h : windowIs s g) : windowIs (stepEdge s) (g + 1) := by
  intro any
  obtain ⟨-, hP1, hPn, rfl⟩ | ⟨hf, -⟩ := hg
  · have hvalid : validRomAddr s.cfgN s.P = true := (validRomAddr_iff _ _).mpr ⟨h3, h5, hP1, hPn⟩
    rw [stepEdge_W, stepEdge_cfgN, stepEdge_M, stepEdge_H, windowAfter_succ_at _ _ _ _ _ hP1, ← h any,
      stepWindow_any s.any any hvalid]
  · simp [hrun] at hf

/-- Settles O42: a step edge does one step more in the count and in the window, a COMPRESS that starts has done none,
and after every other edge the core is idle or nothing changed. -/
theorem windowInvariantKept : Obligations.WindowInvariantKept := by
  intro s t hc hw h
  have hc' := hc.sampled
  have hw' : WindowInv (sampled s) :=
    hw.of_same (by simp) (by simp) (by simp) (by simp) (by simp) (by simp) (by simp)
  obtain ⟨-, -, rfl⟩ | ⟨-, -, hrun, rfl⟩ | ⟨-, -, -, rfl⟩ | ⟨-, -, hidle, -, rfl⟩ | ⟨w, -, -, ha, he⟩ |
    ⟨_, _, _, _, -, -, rfl⟩ := step_cases h
  · exact windowInv_of_idle rfl
  · have hrun' : (sampled s).fsm = .run := by simpa using hrun
    obtain ⟨hp, -⟩ := hc'.busyInRange (by simp [hrun])
    obtain ⟨h3, h5, -⟩ := hc'.cfgLegal hp
    have hg := hc'.stepsDone_of_run hrun'
    exact (windowInv_iff (stepsDone_stepEdge hg hrun')).mpr
      (windowIs_stepEdge hg hrun' h3 h5 ((windowInv_iff hg).mp hw'))
  · exact windowInv_of_idle rfl
  · exact windowInv_of_idle (by simpa using hidle)
  · obtain ⟨-, ⟨hp, -⟩, rfl⟩ | ⟨-, -, -, hidle⟩ := step_starts_or_completes ha h
    · obtain ⟨h3, -⟩ := hc'.cfgLegal (by simpa using hp)
      exact (windowInv_iff (stepsDone_startCompress h3)).mpr (windowIs_startCompress _)
    · exact windowInv_of_idle hidle
  · exact hw'.of_same rfl rfl rfl rfl rfl rfl rfl

/-- A core in FF that meets both invariants: its W is the window after all 96 steps of three passes. -/
theorem witness_WindowInvariantKept_ff :
    let s : State := { State.reset with
      cfgN := 3#3
      cfgDw := 4#4
      phase := .configured
      fsm := .ff
      P := 3#3
      S := 31#5
      W := windowAfter (fun _ => 0) 3#3 State.reset.M State.reset.H 96 }
    ControlInv s ∧ WindowInv s := by
  intro s
  have hdone : stepsDone s 96 := .inr ⟨rfl, rfl⟩
  refine ⟨⟨fun _ => by decide, fun _ => rfl, fun _ => by decide, fun _ => by decide, fun h => absurd rfl h, by decide⟩,
    (windowInv_iff hdone).mpr fun any => ?_⟩
  exact windowAfter_any _ any (n := 3#3) (by decide) (by decide) _ _ 96 (by decide)

/-- Settles O43: the control registers after reset are those of an idle core that is not finalized. -/
theorem invariantsHoldAtReset : Obligations.InvariantsHoldAtReset := by
  have hphase : State.reset.phase ≠ .configured := by decide
  have hfin : State.reset.fin = false := rfl
  exact ⟨controlInv_of_idle rfl (fun h => absurd h hphase) (by simp [hfin]) (fun h => absurd rfl h),
    digestInv_of_not_fin hfin, windowInv_of_idle rfl⟩

end Sys2Proof.Machine
end

section
/-! SUPPORT. A COMPRESS run edge by edge (43_compression_core.md R209, R214, R215; 70_reset_and_hazards.md R315,
R322): the state after each of its edges, up to the feed-forward, and the window against the transaction form. -/

namespace Sys2Proof.Machine
open Sys2Proof.Claims

/-! ## The transaction form -/

/-- The first `k` steps of pass `p + 1`, in the transaction's inner loop, are the global steps from `32 * p` on. -/
theorem foldl_pass_eq_windowAfter (any : AnyValue) (n : BitVec 3) (M : Vec32 Word) (W : Vec8 Word) (p : Nat) {k : Nat}
    (hk : k ≤ 32) :
    (List.range k).foldl (fun V s => stepWindow any n (BitVec.ofNat 3 (p + 1)) (BitVec.ofNat 5 s) V M)
      (windowAfter any n M W (32 * p)) = windowAfter any n M W (32 * p + k) := by
  induction k with
  | zero => rfl
  | succ k ih =>
    have hpass : (32 * p + k) / 32 + 1 = p + 1 := by omega
    have hstep : (32 * p + k) % 32 = k := by omega
    rw [List.range_succ, List.foldl_append, ih (by omega), ← Nat.add_assoc, windowAfter, hpass, hstep]
    rfl

/-- Passes one after the other, each of 32 steps, are the global steps in order (R209). -/
theorem foldl_passes_eq_windowAfter (any : AnyValue) (n : BitVec 3) (M : Vec32 Word) (W : Vec8 Word) (m : Nat) :
    (List.range m).foldl
      (fun V p => (List.range 32).foldl
        (fun V s => stepWindow any n (BitVec.ofNat 3 (p + 1)) (BitVec.ofNat 5 s) V M) V) W =
      windowAfter any n M W (32 * m) := by
  induction m with
  | zero => rfl
  | succ m ih =>
    rw [List.range_succ (n := m), List.foldl_append, ih, List.foldl_cons, List.foldl_nil,
      foldl_pass_eq_windowAfter any n M W m le_rfl, Nat.mul_succ]

/-- The transaction adds the window after all `32 * n` steps to H. -/
theorem compressTransaction_eq (any : AnyValue) (n : BitVec 3) (H : Vec8 Word) (M : Vec32 Word) :
    compressTransaction any n H M = addWords H (windowAfter any n M H (32 * n.toNat)) := by
  rw [← foldl_passes_eq_windowAfter]
  rfl

/-! ## The setting of a run -/

/-- An idle core that can start a COMPRESS with a legal pass count and is offered one with the block `blk`. -/
structure OffersCompress (s : State) (blk : Vec32 Word) (rest : List Event) : Prop where
  idle : s.fsm = .idle
  starts : compressStarts s
  three_le : 3 ≤ s.cfgN.toNat
  le_five : s.cfgN.toNat ≤ 5
  inputs : s.inputs = .edge false true 0x0002#16 blk :: rest

/-- The state `t` after `j` steps of the COMPRESS that `s` was offered: its position, its window, and that but for
these, the block and the ports nothing has changed since `s`. -/
structure MidCompress (s : State) (blk : Vec32 Word) (rest : List Event) (j : Nat) (t : State) : Prop where
  done : stepsDone t j
  window : windowIs t j
  frame : t = { s with
    M := blk
    W := t.W
    P := t.P
    S := t.S
    fsm := t.fsm
    rspValid := false
    inputs := rest.drop j
    blkPort := t.blkPort
    draws := t.draws }

section
variable {s t : State} {blk : Vec32 Word} {rest : List Event} {j : Nat}

theorem MidCompress.M_eq (h : MidCompress s blk rest j t) : t.M = blk := congrArg State.M h.frame
theorem MidCompress.H_eq (h : MidCompress s blk rest j t) : t.H = s.H := by rw [h.frame]
theorem MidCompress.cfgN_eq (h : MidCompress s blk rest j t) : t.cfgN = s.cfgN := by rw [h.frame]
theorem MidCompress.phase_eq (h : MidCompress s blk rest j t) : t.phase = s.phase := by rw [h.frame]
theorem MidCompress.rspValid_eq (h : MidCompress s blk rest j t) : t.rspValid = false := congrArg State.rspValid h.frame
theorem MidCompress.inputs_eq (h : MidCompress s blk rest j t) : t.inputs = rest.drop j := congrArg State.inputs h.frame

/-- The window of a running COMPRESS is a function of H, the block and CFG_N. -/
theorem MidCompress.window_eq (h : MidCompress s blk rest j t) (any : AnyValue) :
    t.W = windowAfter any s.cfgN blk s.H j := by
  rw [h.window any, h.cfgN_eq, h.M_eq, h.H_eq]

/-- Where the coming events are clock edges, so is the next. -/
theorem MidCompress.clockNow (h : MidCompress s blk rest j t)
    (hedges : (rest.take (j + 1)).all Event.plainEdge = true) : t.clockNow = true := by
  rw [State.clockNow, h.inputs_eq]
  cases hd : rest.drop j with
  | nil => rfl
  | cons e es =>
    have hget : rest[j]? = some e := by rw [← List.head?_drop, hd]; rfl
    exact List.all_eq_true.mp hedges e (List.mem_of_getElem? (i := j) (by simp [hget]))

/-! ## The edges of a run -/

/-- The acceptance edge starts the COMPRESS with no step done (R203). -/
theorem OffersCompress.accepted (h : OffersCompress s blk rest) :
    ∃ t, step s = .next t ∧ MidCompress s blk rest 0 t := by
  obtain ⟨hidle, ⟨hp, hf⟩, h3, -, hi⟩ := h
  have hstep := step_of_acceptsNow (w := 0x0002#16) ⟨hidle, blk, rest, hi⟩
  rw [show decodeCommand 0x0002#16 = .compress from rfl,
    exec_compress_of_starts (by simpa using hp) (by simpa using hf)] at hstep
  refine ⟨_, hstep, stepsDone_startCompress (by simpa using h3), windowIs_startCompress _, ?_⟩
  rw [sampled_edge hi]
  rfl

/-- One more step edge, while steps are left (R206). -/
theorem MidCompress.succ (hs : OffersCompress s blk rest) (h : MidCompress s blk rest j t)
    (hj : j < 32 * s.cfgN.toNat) (hc : t.clockNow = true) :
    ∃ u, step t = .next u ∧ MidCompress s blk rest (j + 1) u := by
  have hrun : t.fsm = .run := (stepsDone_fsm h.done).2.2.mpr (by rwa [h.cfgN_eq])
  have hdone : stepsDone (sampled t) j := by simpa [stepsDone] using h.done
  have hwindow : windowIs (sampled t) j := by simpa [windowIs] using h.window
  have hrun' : (sampled t).fsm = .run := by simpa using hrun
  have hn : (sampled t).cfgN = s.cfgN := by simpa using h.cfgN_eq
  refine ⟨_, step_of_run hc hrun, stepsDone_stepEdge hdone hrun',
    windowIs_stepEdge hdone hrun' (hn ▸ hs.three_le) (hn ▸ hs.le_five) hwindow, ?_⟩
  rw [stepEdge_eq, sampled_of_clockNow hc, h.inputs_eq, List.tail_drop]
  rw [h.frame]

/-- The feed-forward edge is the edge after all steps (R208). -/
theorem MidCompress.feedForward (h : MidCompress s blk rest (32 * s.cfgN.toNat) t) (hc : t.clockNow = true) :
    step t = .next (feedForwardEdge (sampled t)) :=
  step_of_ff hc ((stepsDone_fsm h.done).2.1.mpr (by rw [h.cfgN_eq]))

end

/-! ## Runs -/

/-- The state after `1 + j` edges of a COMPRESS, for every `j` up to the number of its steps. -/
theorem OffersCompress.run_mid {s : State} {blk : Vec32 Word} {rest : List Event} (hs : OffersCompress s blk rest) :
    ∀ j, j ≤ 32 * s.cfgN.toNat → (rest.take j).all Event.plainEdge = true →
      ∃ t, Sys2Proof.core.run (j + 1) s = .next t ∧ MidCompress s blk rest j t := by
  intro j
  induction j with
  | zero =>
    intro _ _
    obtain ⟨t, hstep, hmid⟩ := hs.accepted
    exact ⟨t, run_one hstep, hmid⟩
  | succ j ih =>
    intro hj hedges
    have hfirst : (rest.take j).all Event.plainEdge = true := by
      rw [List.take_add_one, List.all_append, Bool.and_eq_true] at hedges
      exact hedges.1
    obtain ⟨t, hrun, hmid⟩ := ih (by omega) hfirst
    obtain ⟨u, hstep, hmid'⟩ := hmid.succ hs (by omega) (hmid.clockNow hedges)
    exact ⟨u, (run_add (j + 1) 1 s t hrun).trans (run_one hstep), hmid'⟩

/-- The whole COMPRESS: its last state is the feed-forward of the one with all steps done. -/
theorem OffersCompress.run_complete {s : State} {blk : Vec32 Word} {rest : List Event} (hs : OffersCompress s blk rest)
    (hedges : (rest.take (32 * s.cfgN.toNat + 1)).all Event.plainEdge = true) :
    ∃ u, Sys2Proof.core.run (32 * s.cfgN.toNat + 2) s = .next (feedForwardEdge (sampled u)) ∧ u.clockNow = true ∧
      MidCompress s blk rest (32 * s.cfgN.toNat) u := by
  have hfirst : (rest.take (32 * s.cfgN.toNat)).all Event.plainEdge = true := by
    rw [List.take_add_one, List.all_append, Bool.and_eq_true] at hedges
    exact hedges.1
  obtain ⟨u, hrun, hmid⟩ := hs.run_mid _ le_rfl hfirst
  have hc := hmid.clockNow hedges
  exact ⟨u, (run_add _ 1 s u hrun).trans (run_one (hmid.feedForward hc)), hc, hmid⟩

/-- Settles O44, by the feed-forward of the state with all steps done, whose window is the transaction's. -/
theorem compressRunsToTransactionResult : Obligations.CompressRunsToTransactionResult := by
  intro s any blk rest hidle hst h3 h5 hi hedges
  obtain ⟨u, hrun, hc, hmid⟩ := OffersCompress.run_complete ⟨hidle, hst, h3, h5, hi⟩ hedges
  have hH : (feedForwardEdge (sampled u)).H = compressTransaction any s.cfgN s.H blk := by
    rw [feedForwardEdge_H, sampled_H, sampled_W, hmid.H_eq, hmid.window_eq any, compressTransaction_eq]
  refine ⟨_, hrun, hH, ?_⟩
  rw [feedForwardEdge_eq, sampled_of_clockNow hc, hmid.frame]
  simp

/-- Settles O45, by the state after each edge before the feed-forward: it is busy, and its H is the old one. -/
theorem compressIsBusyUntilFeedForward : Obligations.CompressIsBusyUntilFeedForward := by
  intro s blk rest j hidle hst h3 h5 hi hj hedges
  obtain ⟨t, hrun, hmid⟩ := OffersCompress.run_mid ⟨hidle, hst, h3, h5, hi⟩ j hj hedges
  have hbusy := stepsDone_busy hmid.done
  have hphase : t.phase = .configured := hmid.phase_eq.trans hst.1
  refine ⟨t, hrun, cmdReady_of_busy hbusy false, hmid.rspValid_eq, by simp [Fsm.busy_eq, hbusy], hmid.H_eq, ?_, ?_⟩
  · simp only [stateOutPort, hphase, hmid.H_eq]
  · rw [(stepsDone_fsm hmid.done).2.1, hmid.cfgN_eq]

/-- Settles O46: the window with all steps done, and so the H written, is a function of H, the block and CFG_N. -/
theorem compressDependsOnStateBlockAndPasses : Obligations.CompressDependsOnStateBlockAndPasses := by
  intro s s' blk rest rest' hidle hidle' hst hst' h3 h5 hn hH hi hi' hedges hedges'
  have hs' : OffersCompress s' blk rest' := ⟨hidle', hst', hn ▸ h3, hn ▸ h5, hi'⟩
  obtain ⟨u, hrun, -, hmid⟩ := OffersCompress.run_complete ⟨hidle, hst, h3, h5, hi⟩ hedges
  obtain ⟨u', hrun', -, hmid'⟩ := hs'.run_complete (hn ▸ hedges')
  have hHu : u.H = u'.H := by rw [hmid.H_eq, hmid'.H_eq, hH]
  have hWu : u.W = u'.W := by rw [hmid.window_eq s.any, hmid'.window_eq s.any, hn, hH]
  refine ⟨_, _, hrun, hn ▸ hrun', ?_, ?_⟩
  · simp only [feedForwardEdge_H, sampled_H, sampled_W, hHu, hWu]
  · simp only [feedForwardEdge_W, sampled_W, hWu]

end Sys2Proof.Machine
end

section
/-! SUPPORT. The index form of the step (41_step_transform.md R145): eight registers that do not move, seen turned by
the number of steps, are the shift register. -/

namespace Sys2Proof.Machine

theorem get_indexView (T : Vec8 Word) (g : Nat) (j : Fin 8) :
    (indexView T g).get j = T.get ⟨(j.val + 7 * g) % 8, Nat.mod_lt _ (by decide)⟩ :=
  Vec8.get_tabulate _ j

theorem get_shiftIn_zero (x : Word) (W : Vec8 Word) : (shiftIn x W).get 0 = x := rfl

theorem get_shiftIn_succ (x : Word) (W : Vec8 Word) (i : Fin 7) : (shiftIn x W).get i.succ = W.get i.castSucc := by
  fin_cases i <;> rfl

/-- After a whole number of turns the registers are seen as they are. -/
theorem indexView_of_dvd {g : Nat} (h : 8 ∣ g) (T : Vec8 Word) : indexView T g = T :=
  Vec8.ext_get fun j => by
    have hturn : (j.val + 7 * g) % 8 = j.val := by omega
    simp only [get_indexView, hturn]

/-- Writing the one register that step g writes is the shift of what is seen: the written word comes in at `W[0]`, and
every other register is seen one place further. -/
theorem indexView_set (T : Vec8 Word) (g : Nat) (x : Word) :
    indexView (T.set ⟨(7 + 7 * g) % 8, Nat.mod_lt _ (by decide)⟩ x) (g + 1) = shiftIn x (indexView T g) := by
  refine Vec8.ext_get fun j => ?_
  rw [get_indexView, Vec8.get_set]
  cases j using Fin.cases with
  | zero =>
    have hat : ((0 : Fin 8).val + 7 * (g + 1)) % 8 = (7 + 7 * g) % 8 := by
      rw [Fin.val_zero]; omega
    rw [get_shiftIn_zero, if_pos (Fin.ext hat)]
  | succ i =>
    have hi := i.isLt
    have hother : (i.succ.val + 7 * (g + 1)) % 8 ≠ (7 + 7 * g) % 8 := by
      rw [Fin.val_succ]; omega
    have hplace : (i.succ.val + 7 * (g + 1)) % 8 = (i.castSucc.val + 7 * g) % 8 := by
      rw [Fin.val_succ, Fin.val_castSucc]; omega
    rw [get_shiftIn_succ, get_indexView, if_neg fun h => hother (Fin.val_eq_of_eq h)]
    simp only [hplace]

/-- At every step the registers of the index form are seen as the shift register (R145). -/
theorem indexView_indexAfter (any : AnyValue) (n : BitVec 3) (M : Vec32 Word) (W : Vec8 Word) (g : Nat) :
    indexView (indexAfter any n M W g) g = windowAfter any n M W g := by
  induction g with
  | zero => exact indexView_of_dvd (Nat.dvd_zero 8) W
  | succ g ih => rw [indexAfter, indexStep, indexView_set, ih, windowAfter, stepWindow]

/-- Settles O47: the view is the shift register at every step, and after whole passes, of 32 steps, it is not turned.
-/
theorem indexFormEqualsShiftForm : Obligations.IndexFormEqualsShiftForm := by
  refine fun any n M W => ⟨indexView_indexAfter any n M W, fun p => ?_⟩
  rw [← indexView_indexAfter, indexView_of_dvd (by omega)]

end Sys2Proof.Machine
end

section
/-! SUPPORT. The encoding (30_encoding.md): the round trip from both sides, the command decoder by the word's fields as
numbers, and the words of the assembly lines. -/

namespace Sys2Proof.Machine

/-! ## From the instructions -/

/-- Settles O48, by the round trip of each form. -/
theorem decodeOfEncodeIsSame : Obligations.DecodeOfEncodeIsSame := by
  intro i
  cases i with
  | nop => exact Laws.RoundTrip.nop
  | init dw n => exact Laws.RoundTrip.init dw n
  | compress => exact Laws.RoundTrip.compress
  | finalize => exact Laws.RoundTrip.finalize
  | reservedOpc4to7 rest lo => exact Laws.RoundTrip.reservedOpc4to7 rest lo
  | reservedOpc8toF rest lo => exact Laws.RoundTrip.reservedOpc8toF rest lo
  | illegalReservedBits rest opc => exact Laws.RoundTrip.illegalReservedBits rest opc
  | f1 => exact Laws.RoundTrip.f1
  | f2 => exact Laws.RoundTrip.f2
  | f3 => exact Laws.RoundTrip.f3
  | f4 => exact Laws.RoundTrip.f4
  | f5 => exact Laws.RoundTrip.f5
  | fselReserved => exact Laws.RoundTrip.fselReserved
  | fselReserved6 lo => exact Laws.RoundTrip.fselReserved6 lo
  | tailorDw8 => exact Laws.RoundTrip.tailorDw8
  | tailorDw7 => exact Laws.RoundTrip.tailorDw7
  | tailorDw6 => exact Laws.RoundTrip.tailorDw6
  | tailorDw5 => exact Laws.RoundTrip.tailorDw5
  | tailorDw4 => exact Laws.RoundTrip.tailorDw4
  | tailorDwOther dw => exact Laws.RoundTrip.tailorDwOther dw
  | romRead n p s => exact Laws.RoundTrip.romRead n p s

/-! ## From the words -/

/-- An instruction stands for a word: it is well formed and encodes to it. -/
def standsFor (i : Instr) (pw : PortWord) : Prop := i.wf = true ∧ encode i = pw

/-- The reserved bits of INIT are the top ones of `rest` (R82, R83). -/
theorem reserved_bits_of_rest (w : BitVec 16) : (w.extractLsb' 4 12).extractLsb' 7 5 = w.extractLsb' 11 5 := by
  ext i hi; grind

/-- An opcode with its top bit set is 8 + `lo` (R84). -/
theorem high_opcode_eq : ∀ opc : BitVec 4, opc.extractLsb' 3 1 = 1#1 → opc = 1#1 ++ opc.extractLsb' 0 3 := by
  decide

/-- An opcode that is none of the core's and has its top bit clear is 4 + `lo` (R84). -/
theorem middle_opcode_eq : ∀ opc : BitVec 4, opc ≠ 0#4 → opc ≠ 1#4 → opc ≠ 2#4 → opc ≠ 3#4 →
    ¬ opc.extractLsb' 3 1 = 1#1 → opc = 1#2 ++ opc.extractLsb' 0 2 := by
  decide

/-- A word is given by its opcode and its other bits. -/
theorem word_ext {w v : BitVec 16} (hopc : w.extractLsb' 0 4 = v.extractLsb' 0 4)
    (hrest : w.extractLsb' 4 12 = v.extractLsb' 4 12) : w = v := by
  rw [(command_fields w).2, (command_fields v).2, hopc, hrest]

/-- A word is its top twelve bits and the two parts of its opcode. -/
theorem word_of_opcode {w : BitVec 16} {hi lo : BitVec 2} (h : w.extractLsb' 0 4 = hi ++ lo) :
    w.extractLsb' 4 12 ++ hi ++ lo = w := by
  obtain ⟨hopc, hrest, -⟩ := Laws.RoundTrip.fields_of_append (w.extractLsb' 4 12) hi lo
  exact word_ext (hopc.trans h.symm) hrest

/-- The same for an opcode with its top bit set. -/
theorem word_of_high_opcode {w : BitVec 16} {hi : BitVec 1} {lo : BitVec 3} (h : w.extractLsb' 0 4 = hi ++ lo) :
    w.extractLsb' 4 12 ++ hi ++ lo = w := by
  obtain ⟨hopc, hrest, -⟩ := Laws.RoundTrip.fields_of_append3 (w.extractLsb' 4 12) hi lo
  exact word_ext (hopc.trans h.symm) hrest

/-- A word with an opcode of the core and a reserved bit set (R83). -/
theorem illegalReservedBits_standsFor {w : BitVec 16} {opc : BitVec 2} (h : w.extractLsb' 0 4 = 0#2 ++ opc)
    (hwf : (Instr.illegalReservedBits (w.extractLsb' 4 12) opc).wf = true) :
    standsFor (.illegalReservedBits (w.extractLsb' 4 12) opc) (.cmd w) :=
  ⟨hwf, congrArg PortWord.cmd (word_of_opcode h)⟩

/-- A word without a reserved bit is its opcode (R81). -/
theorem word_of_rest_zero {w : BitVec 16} (h : w.extractLsb' 4 12 = 0#12) : 0#12 ++ w.extractLsb' 0 4 = w := by
  rw [← h]
  exact (command_fields w).2.symm

/-- Every command word decodes to an instruction that stands for it, branch by branch of the decoder (R85). -/
theorem decodeCommand_standsFor (w : BitVec 16) : standsFor (decodeCommand w) (.cmd w) := by
  have hfields := (command_fields w).1
  have hlow2 : w.extractLsb' 0 2 = (w.extractLsb' 0 4).extractLsb' 0 2 := by ext i hi; grind
  have hlow3 : w.extractLsb' 0 3 = (w.extractLsb' 0 4).extractLsb' 0 3 := by ext i hi; grind
  have htop : w.extractLsb' 3 1 = (w.extractLsb' 0 4).extractLsb' 3 1 := by ext i hi; grind
  have hcmd : ∀ opc : BitVec 4, w.extractLsb' 0 4 = opc → w.extractLsb' 4 12 = 0#12 → 0#12 ++ opc = w :=
    fun opc ho hr => ho ▸ word_of_rest_zero hr
  simp only [decodeCommand]
  split_ifs with h1 hrsv h0 hrest h2 hrest h3 hrest h8
  · exact illegalReservedBits_standsFor h1 (by simpa [Instr.wf, reserved_bits_of_rest] using hrsv)
  · refine ⟨rfl, congrArg PortWord.cmd ?_⟩
    rw [h1, not_not.mp hrsv] at hfields
    exact hfields.symm
  · exact illegalReservedBits_standsFor h0 (by simpa [Instr.wf] using hrest)
  · exact ⟨rfl, congrArg PortWord.cmd (hcmd _ h0 (not_not.mp hrest))⟩
  · exact illegalReservedBits_standsFor h2 (by simpa [Instr.wf] using hrest)
  · exact ⟨rfl, congrArg PortWord.cmd (hcmd _ h2 (not_not.mp hrest))⟩
  · exact illegalReservedBits_standsFor h3 (by simpa [Instr.wf] using hrest)
  · exact ⟨rfl, congrArg PortWord.cmd (hcmd _ h3 (not_not.mp hrest))⟩
  · refine ⟨rfl, congrArg PortWord.cmd (word_of_high_opcode ?_)⟩
    rw [htop] at h8
    rw [hlow3]
    exact high_opcode_eq _ h8
  · refine ⟨rfl, congrArg PortWord.cmd (word_of_opcode ?_)⟩
    rw [htop] at h8
    rw [hlow2]
    exact middle_opcode_eq _ h0 h1 h2 h3 h8

theorem decodeFsel_standsFor (w : BitVec 3) : standsFor (decodeFsel w) (.fsel w) := by
  unfold standsFor; revert w; decide

theorem decodeDw_standsFor (w : BitVec 4) : standsFor (decodeDw w) (.dw w) := by
  unfold standsFor; revert w; decide

theorem decodeRomAddr_standsFor (w : BitVec 11) : standsFor (decodeRomAddr w) (.romAddr w) := by
  refine ⟨rfl, ?_⟩
  simp only [decodeRomAddr, encode, PortWord.romAddr.injEq]
  ext i hi; grind

/-- Settles O49, by the decoder of each set of wires. -/
theorem encodeOfDecodeIsSame : Obligations.EncodeOfDecodeIsSame := by
  intro pw
  cases pw with
  | cmd w => exact decodeCommand_standsFor w
  | fsel w => exact decodeFsel_standsFor w
  | dw w => exact decodeDw_standsFor w
  | romAddr w => exact decodeRomAddr_standsFor w

/-! ## The command decoder by numbers -/

/-- The fields of a command word as numbers (30_encoding.md R80). -/
theorem command_fields_toNat (w : BitVec 16) :
    (w.extractLsb' 0 4).toNat = w.toNat % 16 ∧ (w.extractLsb' 4 12).toNat = w.toNat / 16 ∧
      (w.extractLsb' 11 5).toNat = w.toNat / 2048 ∧ (w.extractLsb' 4 4).toNat = w.toNat / 16 % 16 ∧
      (w.extractLsb' 8 3).toNat = w.toNat / 256 % 8 ∧ (w.extractLsb' 3 1).toNat = w.toNat / 8 % 2 ∧
      (w.extractLsb' 0 2).toNat = w.toNat % 4 ∧ (w.extractLsb' 0 3).toNat = w.toNat % 8 := by
  have hw := w.isLt
  simp only [BitVec.extractLsb'_toNat, Nat.shiftRight_eq_div_pow, Nat.pow_zero, Nat.div_one, true_and, and_true]
  omega

/-- Settles O51: the conditions and the operands of the decoder, read as numbers, in the cases of OPC. -/
theorem commandDecoderIsTotal : Obligations.CommandDecoderIsTotal := by
  intro w opc rest
  have hw := w.isLt
  obtain ⟨hopc, hrest, hrsv, hdw, hnp, htop, hlow2, hlow3⟩ := command_fields_toNat w
  have hoperand : ∀ {n : Nat} (v : BitVec n) {m : Nat}, v.toNat = m → v = BitVec.ofNat n m :=
    fun v m h => by rw [← h, BitVec.ofNat_toNat, BitVec.setWidth_eq]
  have hopc_iff : ∀ k : BitVec 4, w.extractLsb' 0 4 = k ↔ opc = k.toNat := fun k => by
    rw [← BitVec.toNat_inj, hopc]
  have hrest_iff : w.extractLsb' 4 12 ≠ 0#12 ↔ 16 ≤ w.toNat := by
    rw [ne_eq, ← BitVec.toNat_inj, hrest, BitVec.toNat_zero]; omega
  have hrsv_iff : w.extractLsb' 11 5 ≠ 0#5 ↔ 2048 ≤ w.toNat := by
    rw [ne_eq, ← BitVec.toNat_inj, hrsv, BitVec.toNat_zero]; omega
  have htop_iff : w.extractLsb' 3 1 = 1#1 ↔ 8 ≤ opc := by
    rw [← BitVec.toNat_inj, htop]; change _ = 1 ↔ 8 ≤ w.toNat % 16; omega
  simp only [decode, decodeCommand, hopc_iff, hrest_iff, hrsv_iff, htop_iff]
  have hcases : opc = 0 ∨ opc = 1 ∨ opc = 2 ∨ opc = 3 ∨ (4 ≤ opc ∧ opc ≤ 7) ∨ 8 ≤ opc := by omega
  obtain h | h | h | h | ⟨h, h'⟩ | h := hcases
  · simp [h, rest, hoperand _ hrest]
  · simp [h, rest, hoperand _ hrest, hoperand _ hdw, hoperand _ hnp]
  · simp [h, rest, hoperand _ hrest]
  · simp [h, rest, hoperand _ hrest]
  · have hlow : w.toNat % 4 = opc - 4 := by omega
    have hne : opc ≠ 0 ∧ opc ≠ 1 ∧ opc ≠ 2 ∧ opc ≠ 3 ∧ ¬ 8 ≤ opc ∧ ¬ opc ≤ 3 := by omega
    simp [hne, h', rest, hoperand _ hrest, hoperand _ (hlow2.trans hlow)]
  · have hlow : w.toNat % 8 = opc - 8 := by omega
    have hne : opc ≠ 0 ∧ opc ≠ 1 ∧ opc ≠ 2 ∧ opc ≠ 3 ∧ ¬ opc ≤ 3 ∧ ¬ opc ≤ 7 := by omega
    simp [hne, h, rest, hoperand _ hrest, hoperand _ (hlow3.trans hlow)]

/-! ## Lines of assembly -/

/-- The INIT word as the assembler forms it, by masks and shifts, is the word of its fields (R86, R91). -/
theorem asm_init_word (dw : BitVec 4) (n : BitVec 3) :
    0x0001#16 ||| ((BitVec.ofNat 16 dw.toNat &&& 0xF#16) <<< 4) ||| ((BitVec.ofNat 16 n.toNat &&& 0x7#16) <<< 8) =
      0#5 ++ n ++ dw ++ 1#4 := by
  revert dw n; decide

/-- Settles O56, by the word of each line. -/
theorem assembledLinesDecode : Obligations.AssembledLinesDecode := by
  intro blk0 blk dw n raw hdw hn
  have hdw' : (BitVec.ofNat 4 dw).toNat = dw := Nat.mod_eq_of_lt hdw
  have hn' : (BitVec.ofNat 3 n).toNat = n := Nat.mod_eq_of_lt hn
  have hinit := asm_init_word (BitVec.ofNat 4 dw) (BitVec.ofNat 3 n)
  rw [hdw', hn'] at hinit
  refine ⟨⟨_, congrArg (Event.edge false true · blk0) hinit, decodeCommand_init _ _⟩, ⟨_, rfl, Laws.RoundTrip.nop rfl⟩,
    ⟨_, rfl, Laws.RoundTrip.compress rfl⟩, ⟨_, rfl, Laws.RoundTrip.finalize rfl⟩, rfl, ⟨_, rfl⟩⟩

/-- Settles O50, word by word: the decoder computes. -/
theorem writtenWordsDecode : Obligations.WrittenWordsDecode := by
  refine ⟨?_, ?_, ?_, ?_, ?_, ?_, ?_, ?_, ?_, ?_, ?_, ?_, ?_⟩ <;> rfl

end Sys2Proof.Machine
end

section
/-! SUPPORT. The boolean functions lane by lane (40_boolean_functions.md R111, R117, R119, R120), and the rotations of
a word (00_scope.md R11). -/

namespace Sys2Proof.Machine
open Sys2Proof.Claims

/-! ## Lanes -/

/-- Bit `i` of each of seven words. -/
def lane (x : Vec7 Word) (i : Nat) : Vec7 Bool :=
  ⟨x.e0.getLsbD i, x.e1.getLsbD i, x.e2.getLsbD i, x.e3.getLsbD i, x.e4.getLsbD i, x.e5.getLsbD i, x.e6.getLsbD i⟩

/-- F1 of one lane (R112). -/
def laneF1 (b : Vec7 Bool) : Bool :=
  (b.e1 && (b.e0 ^^ b.e4)) ^^ (b.e2 && b.e5) ^^ (b.e3 && b.e6) ^^ b.e0

/-- F2 of one lane (R113). -/
def laneF2 (b : Vec7 Bool) : Bool :=
  (b.e2 && ((b.e1 && !b.e3) ^^ (b.e4 && b.e5) ^^ b.e6 ^^ b.e0)) ^^ (b.e4 && (b.e1 ^^ b.e5)) ^^ (b.e3 && b.e5) ^^ b.e0

/-- F3 of one lane (R114). -/
def laneF3 (b : Vec7 Bool) : Bool :=
  (b.e3 && ((b.e1 && b.e2) ^^ b.e6 ^^ b.e0)) ^^ (b.e1 && b.e4) ^^ (b.e2 && b.e5) ^^ b.e0

/-- F4 of one lane (R115). -/
def laneF4 (b : Vec7 Bool) : Bool :=
  (b.e3 && ((b.e1 && b.e2) ^^ (b.e4 || b.e6) ^^ b.e5)) ^^ (b.e4 && ((!b.e2 && b.e5) ^^ b.e1 ^^ b.e6 ^^ b.e0)) ^^
    (b.e2 && b.e6) ^^ b.e0

/-- F5 of one lane (R116). -/
def laneF5 (b : Vec7 Bool) : Bool :=
  (b.e0 && !((b.e1 && b.e2 && b.e3) ^^ b.e5)) ^^ (b.e1 && b.e4) ^^ (b.e2 && b.e5) ^^ (b.e3 && b.e6)

section
variable (x : Vec7 Word) (i : Nat)

/-! Each function is computed lane by lane, and every lane alike (R111). -/

theorem getLsbD_funF1 : (funF1 x).getLsbD i = laneF1 (lane x i) := by
  simp [funF1, laneF1, lane]

theorem getLsbD_funF2 (hi : i < 32) : (funF2 x).getLsbD i = laneF2 (lane x i) := by
  simp [funF2, laneF2, lane, hi]

theorem getLsbD_funF3 : (funF3 x).getLsbD i = laneF3 (lane x i) := by
  simp [funF3, laneF3, lane]

theorem getLsbD_funF4 (hi : i < 32) : (funF4 x).getLsbD i = laneF4 (lane x i) := by
  simp [funF4, laneF4, lane, hi]

theorem getLsbD_funF5 (hi : i < 32) : (funF5 x).getLsbD i = laneF5 (lane x i) := by
  simp [funF5, laneF5, lane, hi]

end

/-- The lane input index of R119 as a number of seven bits. -/
def bitsIndex (b : Vec7 Bool) : Nat :=
  64 * b.e6.toNat + 32 * b.e5.toNat + 16 * b.e4.toNat + 8 * b.e3.toNat + 4 * b.e2.toNat + 2 * b.e1.toNat + b.e0.toNat

theorem laneIndex_eq (x : Vec7 Word) (i : Nat) : laneIndex x i = bitsIndex (lane x i) := rfl

/-- The five truth tables of R119, at the 128 inputs of a lane. -/
theorem laneF_eq_table : ∀ b0 b1 b2 b3 b4 b5 b6 : Bool, let b : Vec7 Bool := ⟨b0, b1, b2, b3, b4, b5, b6⟩
    laneF1 b = (0xE11E2DD211EEDD221E1ED2D2EEEE2222#128).getLsbD (bitsIndex b) ∧
    laneF2 b = (0xC6F9053A36F6FA3A3609F5CAC6060ACA#128).getLsbD (bitsIndex b) ∧
    laneF3 b = (0x0396CF5AF3663FAAFC96305A0C66C0AA#128).getLsbD (bitsIndex b) ∧
    laneF4 b = (0x0CCC9A5AFCC3655A03C395AAF3CC6AAA#128).getLsbD (bitsIndex b) ∧
    laneF5 b = (0x433C8FF01966D5AABC3C70F0E6662AAA#128).getLsbD (bitsIndex b) := by
  decide

/-- Settles O12, by the lanes and the table of a lane. -/
theorem functionsFollowTruthTables : Obligations.FunctionsFollowTruthTables := by
  intro any x i hi
  rw [laneIndex_eq]
  obtain ⟨h1, h2, h3, h4, h5⟩ := laneF_eq_table (x.e0.getLsbD i) (x.e1.getLsbD i) (x.e2.getLsbD i) (x.e3.getLsbD i)
    (x.e4.getLsbD i) (x.e5.getLsbD i) (x.e6.getLsbD i)
  exact ⟨(getLsbD_funF1 x i).trans h1, (getLsbD_funF2 x i hi).trans h2, (getLsbD_funF3 x i).trans h3,
    (getLsbD_funF4 x i hi).trans h4, (getLsbD_funF5 x i hi).trans h5⟩

/-! ## Normal forms -/

/-- The normal forms of R117, at the 128 inputs of a lane. -/
theorem laneF_eq_normalForm : ∀ b0 b1 b2 b3 b4 b5 b6 : Bool, let b : Vec7 Bool := ⟨b0, b1, b2, b3, b4, b5, b6⟩
    laneF1 b = ((b1 && b4) ^^ (b2 && b5) ^^ (b3 && b6) ^^ (b0 && b1) ^^ b0) ∧
    laneF2 b = ((b1 && b2 && b3) ^^ (b2 && b4 && b5) ^^ (b1 && b2) ^^ (b1 && b4) ^^ (b2 && b6) ^^ (b3 && b5) ^^
      (b4 && b5) ^^ (b0 && b2) ^^ b0) ∧
    laneF3 b = ((b1 && b2 && b3) ^^ (b1 && b4) ^^ (b2 && b5) ^^ (b3 && b6) ^^ (b0 && b3) ^^ b0) ∧
    laneF4 b = ((b1 && b2 && b3) ^^ (b2 && b4 && b5) ^^ (b3 && b4 && b6) ^^ (b1 && b4) ^^ (b2 && b6) ^^ (b3 && b4) ^^
      (b3 && b5) ^^ (b3 && b6) ^^ (b4 && b5) ^^ (b4 && b6) ^^ (b0 && b4) ^^ b0) ∧
    laneF5 b = ((b1 && b4) ^^ (b2 && b5) ^^ (b3 && b6) ^^ (b0 && b1 && b2 && b3) ^^ (b0 && b5) ^^ b0) := by
  decide

/-- Settles O13, by the lanes and the normal forms of a lane. -/
theorem functionsEqualNormalForms : Obligations.FunctionsEqualNormalForms := by
  intro any x0 x1 x2 x3 x4 x5 x6 a
  have hlane (i : Nat) := laneF_eq_normalForm (x0.getLsbD i) (x1.getLsbD i) (x2.getLsbD i) (x3.getLsbD i)
    (x4.getLsbD i) (x5.getLsbD i) (x6.getLsbD i)
  refine ⟨?_, ?_, ?_, ?_, ?_⟩ <;> refine BitVec.eq_of_getLsbD_eq fun i hi => ?_ <;>
    obtain ⟨h1, h2, h3, h4, h5⟩ := hlane i <;> simp only [BitVec.getLsbD_xor, BitVec.getLsbD_and]
  · exact (getLsbD_funF1 a i).trans h1
  · exact (getLsbD_funF2 a i hi).trans h2
  · exact (getLsbD_funF3 a i).trans h3
  · exact (getLsbD_funF4 a i hi).trans h4
  · exact (getLsbD_funF5 a i hi).trans h5

/-- Settles O14: with one word everywhere the terms of each normal form cancel in pairs. -/
theorem functionsOnEqualInputs : Obligations.FunctionsOnEqualInputs := by
  intro any v a
  obtain ⟨h1, h2, h3, h4, h5⟩ := functionsEqualNormalForms any v v v v v v v
  simp only [a, h1, h2, h3, h4, h5]
  simp

/-! ## Rotations -/

/-- Bit `i` after a rotation right by `k` is bit `i + k`, counted around the word. -/
theorem getLsbD_rotr (v : Word) {k i : Nat} (hk : k < 32) (hi : i < 32) :
    (rotr v k).getLsbD i = v.getLsbD ((i + k) % 32) := by
  rw [rotr_eq_rotateRight v hk, BitVec.getLsbD_rotateRight, Nat.mod_eq_of_lt hk]
  by_cases h : i < 32 - k
  · have hpos : (i + k) % 32 = k + i := by omega
    simp [h, hpos]
  · have hpos : (i + k) % 32 = i - (32 - k) := by omega
    simp [h, hpos, hi]

/-- `rotl` of the spec is the library's rotation to the left. -/
theorem rotl_eq_rotateLeft (v : Word) {k : Nat} (hk : k < 32) : rotl v k = v.rotateLeft k := by
  refine BitVec.eq_of_getLsbD_eq fun i hi => ?_
  rw [rotl, getLsbD_rotr v (Nat.mod_lt _ (by decide)) hi, BitVec.getLsbD_rotateLeft, Nat.mod_eq_of_lt hk]
  by_cases h : i < k
  · have hpos : (i + (32 - k) % 32) % 32 = 32 - k + i := by omega
    simp [h, hpos]
  · have hpos : (i + (32 - k) % 32) % 32 = i - k := by omega
    simp [h, hpos, hi]

/-- Turning right and then left by the same amount is a whole turn. -/
theorem rotl_rotr (v : Word) {k : Nat} (hk : k < 32) : rotl (rotr v k) k = v := by
  refine BitVec.eq_of_getLsbD_eq fun i hi => ?_
  have hturn : ((i + (32 - k) % 32) % 32 + k) % 32 = i := by omega
  rw [rotl, getLsbD_rotr _ (Nat.mod_lt _ (by decide)) hi, getLsbD_rotr v hk (Nat.mod_lt _ (by decide)), hturn]

/-- Settles O15, by the three facts about rotations. -/
theorem rotationsAreBitRotations : Obligations.RotationsAreBitRotations := by
  intro v k hk
  have hk' : k < 32 := Nat.lt_succ_of_le hk
  exact ⟨rotr_eq_rotateRight v hk', rotl_eq_rotateLeft v hk', rotl_rotr v hk'⟩

end Sys2Proof.Machine
end

section
/-! SUPPORT. The fields that the tailor moves (44_output_tailor.md R242 to R245, R248; 95_test_vectors.md section
6.2): a field of a word, its place in another, and what masks, shifts and rotations do to it. -/

namespace Sys2Proof.Machine
open Sys2Proof.Claims

/-! ## Fields -/

/-- The `len` bits of `w` from bit `lo` on, put at bit `pos` of a word of 0s. -/
def field (w : Word) (lo len pos : Nat) : Word := (w.extractLsb' lo len).setWidth 32 <<< pos

theorem getLsbD_field (w : Word) {lo len pos i : Nat} (hi : i < 32) :
    (field w lo len pos).getLsbD i = (decide (pos ≤ i ∧ i < pos + len) && w.getLsbD (lo + (i - pos))) := by
  simp only [field, BitVec.getLsbD_shiftLeft, BitVec.getLsbD_setWidth, BitVec.getLsbD_extractLsb']
  grind

/-- A mask of `len` ones from bit `lo` on leaves the field where it stands. -/
theorem and_mask (w : Word) (lo len : Nat) : w &&& BitVec.ofNat 32 ((2 ^ len - 1) * 2 ^ lo) = field w lo len lo := by
  refine BitVec.eq_of_getLsbD_eq fun i hi => ?_
  rw [BitVec.getLsbD_and, BitVec.getLsbD_ofNat, Nat.testBit_mul_two_pow, Nat.testBit_two_pow_sub_one,
    getLsbD_field _ hi]
  grind

theorem field_ushiftRight (w : Word) {lo len pos k : Nat} (hk : k ≤ pos) (hp : pos + len ≤ 32) :
    field w lo len pos >>> k = field w lo len (pos - k) := by
  refine BitVec.eq_of_getLsbD_eq fun i hi => ?_
  rw [BitVec.getLsbD_ushiftRight, getLsbD_field _ hi]
  by_cases h : k + i < 32
  · rw [getLsbD_field _ h]; grind
  · grind

/-- A field of a shifted word is a field from higher up. -/
theorem field_of_ushiftRight (w : Word) (lo len pos k : Nat) :
    field (w >>> k) lo len pos = field w (k + lo) len pos := by
  refine BitVec.eq_of_getLsbD_eq fun i hi => ?_
  rw [getLsbD_field _ hi, getLsbD_field _ hi, BitVec.getLsbD_ushiftRight, Nat.add_assoc]

/-- A rotation right moves a field that it does not break around the word. -/
theorem rotr_field (w : Word) {lo len pos k : Nat} (hk : k < 32) (hp : pos + len ≤ 32)
    (hwhole : k ≤ pos ∨ pos + len ≤ k) :
    rotr (field w lo len pos) k = field w lo len ((pos + (32 - k)) % 32) := by
  refine BitVec.eq_of_getLsbD_eq fun i hi => ?_
  rw [rotr_eq_rotateRight _ hk, BitVec.getLsbD_rotateRight, Nat.mod_eq_of_lt hk, getLsbD_field _ hi]
  grind [getLsbD_field]

theorem rotr_or (v w : Word) (k : Nat) : rotr (v ||| w) k = rotr v k ||| rotr w k := by
  refine BitVec.eq_of_getLsbD_eq fun i hi => ?_
  unfold rotr
  split
  · rfl
  · simp only [BitVec.getLsbD_or, BitVec.getLsbD_ushiftRight, BitVec.getLsbD_shiftLeft]
    grind

/-- A concatenation as a word: the high part moved up by the width of the low part. -/
theorem setWidth_append_eq {n m : Nat} (x : BitVec n) (y : BitVec m) :
    (x ++ y).setWidth 32 = x.setWidth 32 <<< m ||| y.setWidth 32 := by
  refine BitVec.eq_of_getLsbD_eq fun i hi => ?_
  simp only [BitVec.getLsbD_setWidth, BitVec.getLsbD_append, BitVec.getLsbD_or, BitVec.getLsbD_shiftLeft]
  grind

/-- One field, two fields and three fields in a row, with zeros above. -/
theorem setWidth_append1 (z : Nat) {a : Nat} (u : Word) (lu : Nat) :
    (0#z ++ u.extractLsb' lu a).setWidth 32 = field u lu a 0 := by
  simp only [setWidth_append_eq, field, BitVec.setWidth_zero, BitVec.zero_shiftLeft, BitVec.zero_or,
    BitVec.shiftLeft_zero]

theorem setWidth_append2 (z : Nat) {a b : Nat} (u v : Word) (lu lv : Nat) :
    (0#z ++ u.extractLsb' lu a ++ v.extractLsb' lv b).setWidth 32 = field u lu a b ||| field v lv b 0 := by
  rw [setWidth_append_eq, setWidth_append1]
  simp only [field, BitVec.shiftLeft_zero]

theorem setWidth_append3 (z : Nat) {a b c : Nat} (u v w : Word) (lu lv lw : Nat) :
    (0#z ++ u.extractLsb' lu a ++ v.extractLsb' lv b ++ w.extractLsb' lw c).setWidth 32 =
      field u lu a (b + c) ||| field v lv b c ||| field w lw c 0 := by
  rw [setWidth_append_eq, setWidth_append2]
  simp only [field, BitVec.shiftLeft_or_distrib, BitVec.shiftLeft_add, BitVec.shiftLeft_zero]

/-- Four fields in a row. -/
theorem setWidth_append4 {a b c d : Nat} (u v w x : Word) (lu lv lw lx : Nat) :
    (u.extractLsb' lu a ++ v.extractLsb' lv b ++ w.extractLsb' lw c ++ x.extractLsb' lx d).setWidth 32 =
      field u lu a (b + c + d) ||| field v lv b (c + d) ||| field w lw c d ||| field x lx d 0 := by
  simp only [setWidth_append_eq, field, BitVec.shiftLeft_or_distrib, BitVec.shiftLeft_add, BitVec.shiftLeft_zero]

/-! ## The masks of the tailor, and the rows of fields of the bit maps -/

theorem and_0x0000000F (w : Word) : w &&& 0x0000000F = field w 0 4 0 := and_mask w 0 4
theorem and_0x0000001F (w : Word) : w &&& 0x0000001F = field w 0 5 0 := and_mask w 0 5
theorem and_0x000003E0 (w : Word) : w &&& 0x000003E0 = field w 5 5 5 := and_mask w 5 5
theorem and_0x0000FC00 (w : Word) : w &&& 0x0000FC00 = field w 10 6 10 := and_mask w 10 6
theorem and_0x001F0000 (w : Word) : w &&& 0x001F0000 = field w 16 5 16 := and_mask w 16 5
theorem and_0x03E00000 (w : Word) : w &&& 0x03E00000 = field w 21 5 21 := and_mask w 21 5
theorem and_0xFC000000 (w : Word) : w &&& 0xFC000000 = field w 26 6 26 := and_mask w 26 6
theorem and_0x0000003F (w : Word) : w &&& 0x0000003F = field w 0 6 0 := and_mask w 0 6
theorem and_0x00000FC0 (w : Word) : w &&& 0x00000FC0 = field w 6 6 6 := and_mask w 6 6
theorem and_0x0007F000 (w : Word) : w &&& 0x0007F000 = field w 12 7 12 := and_mask w 12 7
theorem and_0x01F80000 (w : Word) : w &&& 0x01F80000 = field w 19 6 19 := and_mask w 19 6
theorem and_0xFE000000 (w : Word) : w &&& 0xFE000000 = field w 25 7 25 := and_mask w 25 7
theorem and_0x000000FF (w : Word) : w &&& 0x000000FF = field w 0 8 0 := and_mask w 0 8
theorem and_0x0000FF00 (w : Word) : w &&& 0x0000FF00 = field w 8 8 8 := and_mask w 8 8
theorem and_0x00FF0000 (w : Word) : w &&& 0x00FF0000 = field w 16 8 16 := and_mask w 16 8
theorem and_0xFF000000 (w : Word) : w &&& 0xFF000000 = field w 24 8 24 := and_mask w 24 8

theorem append_8_8_8_8 (u v w x : Word) (lu lv lw lx : Nat) :
    (u.extractLsb' lu 8 ++ v.extractLsb' lv 8 ++ w.extractLsb' lw 8 ++ x.extractLsb' lx 8 : Word) =
      field u lu 8 24 ||| field v lv 8 16 ||| field w lw 8 8 ||| field x lx 8 0 :=
  (BitVec.setWidth_eq _).symm.trans (setWidth_append4 u v w x lu lv lw lx)

theorem append_13_6_7_6 (u v w : Word) (lu lv lw : Nat) :
    (0#13 ++ u.extractLsb' lu 6 ++ v.extractLsb' lv 7 ++ w.extractLsb' lw 6 : Word) =
      field u lu 6 13 ||| field v lv 7 6 ||| field w lw 6 0 :=
  (BitVec.setWidth_eq _).symm.trans (setWidth_append3 13 u v w lu lv lw)

theorem append_13_6_6_7 (u v w : Word) (lu lv lw : Nat) :
    (0#13 ++ u.extractLsb' lu 6 ++ v.extractLsb' lv 6 ++ w.extractLsb' lw 7 : Word) =
      field u lu 6 13 ||| field v lv 6 7 ||| field w lw 7 0 :=
  (BitVec.setWidth_eq _).symm.trans (setWidth_append3 13 u v w lu lv lw)

theorem append_13_7_6_6 (u v w : Word) (lu lv lw : Nat) :
    (0#13 ++ u.extractLsb' lu 7 ++ v.extractLsb' lv 6 ++ w.extractLsb' lw 6 : Word) =
      field u lu 7 12 ||| field v lv 6 6 ||| field w lw 6 0 :=
  (BitVec.setWidth_eq _).symm.trans (setWidth_append3 13 u v w lu lv lw)

theorem append_12_7_6_7 (u v w : Word) (lu lv lw : Nat) :
    (0#12 ++ u.extractLsb' lu 7 ++ v.extractLsb' lv 6 ++ w.extractLsb' lw 7 : Word) =
      field u lu 7 13 ||| field v lv 6 7 ||| field w lw 7 0 :=
  (BitVec.setWidth_eq _).symm.trans (setWidth_append3 12 u v w lu lv lw)

theorem append_21_5_6 (u v : Word) (lu lv : Nat) :
    (0#21 ++ u.extractLsb' lu 5 ++ v.extractLsb' lv 6 : Word) =
      field u lu 5 6 ||| field v lv 6 0 :=
  (BitVec.setWidth_eq _).symm.trans (setWidth_append2 21 u v lu lv)

theorem append_22_5_5 (u v : Word) (lu lv : Nat) :
    (0#22 ++ u.extractLsb' lu 5 ++ v.extractLsb' lv 5 : Word) =
      field u lu 5 5 ||| field v lv 5 0 :=
  (BitVec.setWidth_eq _).symm.trans (setWidth_append2 22 u v lu lv)

theorem append_21_6_5 (u v : Word) (lu lv : Nat) :
    (0#21 ++ u.extractLsb' lu 6 ++ v.extractLsb' lv 5 : Word) =
      field u lu 6 5 ||| field v lv 5 0 :=
  (BitVec.setWidth_eq _).symm.trans (setWidth_append2 21 u v lu lv)

theorem append_27_5 (u : Word) (lu : Nat) :
    (0#27 ++ u.extractLsb' lu 5 : Word) =
      field u lu 5 0 :=
  (BitVec.setWidth_eq _).symm.trans (setWidth_append1 27 u lu)

theorem append_28_4 (u : Word) (lu : Nat) :
    (0#28 ++ u.extractLsb' lu 4 : Word) =
      field u lu 4 0 :=
  (BitVec.setWidth_eq _).symm.trans (setWidth_append1 28 u lu)

/-! ## The bit maps -/

/-- Settles O18: both sides of each word are the same fields in the same places. -/
theorem tailorPlacesFieldsByBitMap : Obligations.TailorPlacesFieldsByBitMap := by
  intro any h f4 f5 f6 f7 f8
  refine ⟨?_, ?_, ?_, ?_, rfl⟩
  · change tailor4 h = _
    simp (disch := decide) only [tailor4, f8, and_0x000000FF, and_0x0000FF00, and_0x00FF0000, and_0xFF000000,
      rotr_or, rotr_field, append_8_8_8_8]
  · change tailor5 h = _
    simp (disch := decide) only [tailor5, f6, f7, and_0x0000003F, and_0x00000FC0, and_0x0007F000, and_0x01F80000,
      and_0xFE000000, rotr_or, rotr_field, BitVec.ushiftRight_or_distrib, field_ushiftRight, append_13_6_7_6,
      append_13_6_6_7, append_13_7_6_6, append_12_7_6_7]
  · change tailor6 h = _
    simp (disch := decide) only [tailor6, f5, f6, and_0x0000001F, and_0x000003E0, and_0x0000FC00, and_0x001F0000,
      and_0x03E00000, and_0xFC000000, rotr_or, rotr_field, BitVec.ushiftRight_or_distrib, field_ushiftRight,
      append_21_5_6, append_22_5_5, append_21_6_5]
  · change tailor7 h = _
    simp only [tailor7, f4, f5, and_0x0000000F, and_0x0000001F, field_of_ushiftRight, append_27_5, append_28_4]

end Sys2Proof.Machine
end

section
/-! SUPPORT. Every extra bit once (44_output_tailor.md R248): where each bit of an extra word lands, and which bit it
came from. -/

namespace Sys2Proof.Machine
open Sys2Proof.Claims

/-- A row of a bit map: the `len` bits of the extra word `h[k]` from bit `lo` on stand at bit `pos` of digest word
`i`. -/
structure Move where
  i : Fin 8
  pos : Nat
  k : Fin 8
  lo : Nat
  len : Nat

/-- The bit maps of 95_test_vectors.md section 6.2. -/
def bitMap (dw : BitVec 4) : List Move :=
  match dw.toNat with
  | 4 => [⟨0, 24, 7, 0, 8⟩, ⟨0, 16, 6, 24, 8⟩, ⟨0, 8, 5, 16, 8⟩, ⟨0, 0, 4, 8, 8⟩,
          ⟨1, 24, 7, 8, 8⟩, ⟨1, 16, 6, 0, 8⟩, ⟨1, 8, 5, 24, 8⟩, ⟨1, 0, 4, 16, 8⟩,
          ⟨2, 24, 7, 16, 8⟩, ⟨2, 16, 6, 8, 8⟩, ⟨2, 8, 5, 0, 8⟩, ⟨2, 0, 4, 24, 8⟩,
          ⟨3, 24, 7, 24, 8⟩, ⟨3, 16, 6, 16, 8⟩, ⟨3, 8, 5, 8, 8⟩, ⟨3, 0, 4, 0, 8⟩]
  | 5 => [⟨0, 13, 7, 0, 6⟩, ⟨0, 6, 6, 25, 7⟩, ⟨0, 0, 5, 19, 6⟩,
          ⟨1, 13, 7, 6, 6⟩, ⟨1, 7, 6, 0, 6⟩, ⟨1, 0, 5, 25, 7⟩,
          ⟨2, 12, 7, 12, 7⟩, ⟨2, 6, 6, 6, 6⟩, ⟨2, 0, 5, 0, 6⟩,
          ⟨3, 13, 7, 19, 6⟩, ⟨3, 6, 6, 12, 7⟩, ⟨3, 0, 5, 6, 6⟩,
          ⟨4, 13, 7, 25, 7⟩, ⟨4, 7, 6, 19, 6⟩, ⟨4, 0, 5, 12, 7⟩]
  | 6 => [⟨0, 6, 7, 0, 5⟩, ⟨0, 0, 6, 26, 6⟩, ⟨1, 5, 7, 5, 5⟩, ⟨1, 0, 6, 0, 5⟩,
          ⟨2, 5, 7, 10, 6⟩, ⟨2, 0, 6, 5, 5⟩, ⟨3, 6, 7, 16, 5⟩, ⟨3, 0, 6, 10, 6⟩,
          ⟨4, 5, 7, 21, 5⟩, ⟨4, 0, 6, 16, 5⟩, ⟨5, 5, 7, 26, 6⟩, ⟨5, 0, 6, 21, 5⟩]
  | 7 => [⟨0, 0, 7, 27, 5⟩, ⟨1, 0, 7, 22, 5⟩, ⟨2, 0, 7, 18, 4⟩, ⟨3, 0, 7, 13, 5⟩, ⟨4, 0, 7, 9, 4⟩,
          ⟨5, 0, 7, 4, 5⟩, ⟨6, 0, 7, 0, 4⟩]
  | _ => []

/-- Where bit `b` of the extra word `h[k]` lands: digest word and bit. -/
def landing (dw : BitVec 4) (k : Fin 8) (b : Fin 32) : Fin 8 × Fin 32 :=
  match (bitMap dw).find? fun m => m.k = k ∧ m.lo ≤ b.val ∧ b.val < m.lo + m.len with
  | some m => (m.i, Fin.ofNat 32 (m.pos + (b.val - m.lo)))
  | none => (k, b)

/-- Which bit of an extra word lands at bit `c` of digest word `i`. -/
def origin (dw : BitVec 4) (l : Fin 8 × Fin 32) : Fin 8 × Fin 32 :=
  match (bitMap dw).find? fun m => m.i = l.1 ∧ m.pos ≤ l.2.val ∧ l.2.val < m.pos + m.len with
  | some m => (m.k, Fin.ofNat 32 (m.lo + (l.2.val - m.pos)))
  | none => l

/-- Each bit of an extra word alone gives its landing bit alone, in a digest word (R242 to R245). -/
theorem tailor_oneBit_of_zero : ∀ dw : BitVec 4, 4 ≤ dw.toNat → dw.toNat ≤ 7 → ∀ k : Fin 8, dw.toNat ≤ k.val →
    ∀ b : Fin 32, tailor (fun _ => 0) dw (oneBit k b) = oneBit (landing dw k b).1 (landing dw k b).2 ∧
      (landing dw k b).1.val < dw.toNat := by
  decide

/-- Each bit of an extra word is found back from where it lands. -/
theorem origin_landing : ∀ dw : BitVec 4, 4 ≤ dw.toNat → dw.toNat ≤ 7 → ∀ k : Fin 8, dw.toNat ≤ k.val →
    ∀ b : Fin 32, origin dw (landing dw k b) = (k, b) := by
  decide

/-- No open value reaches the tailor's words at these lengths. -/
theorem tailor_oneBit (any : AnyValue) {dw : BitVec 4} (h4 : 4 ≤ dw.toNat) (h7 : dw.toNat ≤ 7) {k : Fin 8}
    (hk : dw.toNat ≤ k.val) (b : Fin 32) :
    tailor any dw (oneBit k b) = oneBit (landing dw k b).1 (landing dw k b).2 := by
  rw [tailor_any any (fun _ => 0) h4 (h7.trans (by decide)) (oneBit k b)]
  exact (tailor_oneBit_of_zero dw h4 h7 k hk b).1

theorem get_oneBit (k : Fin 8) (b : Fin 32) (j : Fin 8) :
    (oneBit k b).get j = if j = k then BitVec.twoPow 32 b.val else 0 :=
  Vec8.get_tabulate _ j

/-- A single bit stands in one word at one place. -/
theorem oneBit_injective {k k' : Fin 8} {b b' : Fin 32} (h : oneBit k b = oneBit k' b') : k = k' ∧ b = b' := by
  have hbit : ((oneBit k' b').get k).getLsbD b.val = true := by
    rw [← h, get_oneBit, if_pos rfl]
    simp
  rw [get_oneBit] at hbit
  split at hbit
  case isTrue hk =>
    simp only [BitVec.getLsbD_twoPow, Bool.and_eq_true, decide_eq_true_eq] at hbit
    exact ⟨hk, Fin.ext hbit.2.symm⟩
  case isFalse => simp at hbit

/-- Settles O19, by the landing bit, and the bit it came from. -/
theorem tailorUsesEveryExtraBitOnce : Obligations.TailorUsesEveryExtraBitOnce := by
  intro any dw k b h4 h7 hk
  obtain ⟨-, hlt⟩ := tailor_oneBit_of_zero dw h4 h7 k hk b
  refine ⟨(landing dw k b).1, (landing dw k b).2, hlt, fun j => ?_, fun k' b' hk' heq => ?_⟩
  · rw [tailor_oneBit any h4 h7 hk, get_oneBit]
  · rw [tailor_oneBit any h4 h7 hk, tailor_oneBit any h4 h7 hk'] at heq
    obtain ⟨hi, hc⟩ := oneBit_injective heq
    have horigin := congrArg (origin dw) (Prod.ext hi hc)
    rw [origin_landing dw h4 h7 k hk, origin_landing dw h4 h7 k' hk', Prod.mk.injEq] at horigin
    exact horigin

end Sys2Proof.Machine
end

section
/-! SUPPORT. The pass schedules as permutations (42_pass_schedule_rom.md R162, R163, R164, R168). -/

namespace Sys2Proof.Machine

/-- The five orders of R163, in the order of the passes. -/
def ordTables : List (Vec32 (BitVec 5)) := [ord1, ord2, ord3, ord4, ord5]

/-- No order names an index twice. -/
theorem ordTables_injective : ∀ o ∈ ordTables, ∀ i j : Fin 32, o.get i = o.get j → i = j := by
  decide

/-- At a valid address the word index is an entry of one of the five orders (R163). -/
theorem ordAt_eq_table (any : AnyValue) {n p : BitVec 3} (h : validRomAddr n p = true) :
    ∃ o ∈ ordTables, ∀ k : BitVec 5, ordAt any p k = o.get k.toFin := by
  obtain ⟨-, rfl | rfl | rfl | rfl | rfl⟩ := validRomAddr_cases h
  · exact ⟨ord1, by simp [ordTables], fun _ => rfl⟩
  · exact ⟨ord2, by simp [ordTables], fun _ => rfl⟩
  · exact ⟨ord3, by simp [ordTables], fun _ => rfl⟩
  · exact ⟨ord4, by simp [ordTables], fun _ => rfl⟩
  · exact ⟨ord5, by simp [ordTables], fun _ => rfl⟩

/-- A pass reads every word of the block, and reads it once: 32 steps that read no word twice read all (R168). -/
theorem ordAt_existsUnique (any : AnyValue) {n p : BitVec 3} (h : validRomAddr n p = true) (k : BitVec 5) :
    ∃ s : BitVec 5, ordAt any p s = k ∧ ∀ s' : BitVec 5, ordAt any p s' = k → s' = s := by
  obtain ⟨o, ho, hord⟩ := ordAt_eq_table any h
  have hinj : Function.Injective fun i : Fin 32 => (o.get i).toFin := fun i j hij =>
    ordTables_injective o ho i j (BitVec.toFin_inj.mp hij)
  obtain ⟨i, hi⟩ := Finite.surjective_of_injective hinj k.toFin
  refine ⟨BitVec.ofFin i, ?_, fun s' hs' => ?_⟩
  · rw [hord]
    exact BitVec.toFin_inj.mp hi
  · rw [hord] at hs'
    exact BitVec.toFin_inj.mp (hinj ((congrArg BitVec.toFin hs').trans hi.symm))

/-- The seven selectors of a pass name the registers W[0] to W[6], each once (R162, R168). -/
theorem phiRow_existsUnique (any : AnyValue) {n p : BitVec 3} (h : validRomAddr n p = true) (j : Fin 7) :
    ∃ i : Fin 7, ((phiRow any n p).get i).toNat = j.val ∧
      ∀ i' : Fin 7, ((phiRow any n p).get i').toNat = j.val → i' = i := by
  rw [phiRow_any any (fun _ => 0) h]
  revert h j
  revert n p
  decide

/-- Pass 1 is in natural order with zero constants (R163, R164). -/
theorem pass_one_natural (any : AnyValue) (s : BitVec 5) : ordAt any 1#3 s = s ∧ kAt any 1#3 s = 0 := by
  have hord : ∀ s : BitVec 5, ord1.get s.toFin = s := by decide
  exact ⟨hord s, Vec32.get_tabulate _ _⟩

/-- The later passes do not begin with word 0 (R163). -/
theorem ordAt_zero_ne (any : AnyValue) {n p : BitVec 3} (h : validRomAddr n p = true) (hp : p ≠ 1#3) :
    ordAt any p 0#5 ≠ 0#5 := by
  obtain ⟨-, rfl | rfl | rfl | rfl | rfl⟩ := validRomAddr_cases h
  · exact absurd rfl hp
  · exact (by decide : ord2.get 0 ≠ 0#5)
  · exact (by decide : ord3.get 0 ≠ 0#5)
  · exact (by decide : ord4.get 0 ≠ 0#5)
  · exact (by decide : ord5.get 0 ≠ 0#5)

/-- Settles O22, by the schedule of the addressed pass: at a valid address the read gives the tables. -/
theorem romSchedulesArePermutations : Obligations.RomSchedulesArePermutations := by
  intro any n p h3 h5 h1 hpn
  have hvalid : validRomAddr n p = true := (validRomAddr_iff n p).mpr ⟨h3, h5, h1, hpn⟩
  simp only [romRead_valid any hvalid]
  refine ⟨ordAt_existsUnique any hvalid, fun _ => phiRow_existsUnique any hvalid, ?_, fun hp =>
    ⟨_, ordAt_zero_ne any hvalid hp⟩⟩
  rintro rfl
  exact pass_one_natural any

end Sys2Proof.Machine
end

section
/-! SUPPORT. What writes the window, the block, the digest, the position and the configuration (10_state.md sections 1
to 3), and what the ports show after a reset edge (70_reset_and_hazards.md R301). -/

namespace Sys2Proof.Machine
open Sys2Proof.Claims

/-! ## Accepted commands as writers -/

/-- M, W, P and S are written by a COMPRESS that starts and by no other command (10_state.md R23, R24, R30). -/
theorem exec_command_M_W_P_S {w : BitVec 16} {s t : State} (h : exec (decodeCommand w) s = .next t) :
    (w = 0x0002#16 ∧ compressStarts s ∧ t = startCompress s) ∨ (t.M = s.M ∧ t.W = s.W ∧ t.P = s.P ∧ t.S = s.S) := by
  obtain ⟨-, he⟩ | ⟨_, _, -, -, -, he⟩ | ⟨_, _, -, -, he⟩ | ⟨-, -, he⟩ | ⟨-, -, -, he⟩ | ⟨rfl, hp, hf, he⟩ |
    ⟨-, -, he⟩ | ⟨-, -, he⟩ | ⟨-, -, he⟩ := exec_command_cases w s <;> cases he.symm.trans h
  case inr.inr.inr.inr.inr.inl => exact .inl ⟨rfl, ⟨hp, hf⟩, rfl⟩
  all_goals exact .inr ⟨rfl, rfl, rfl, rfl⟩

/-- D is written by a FINALIZE in a configured core and by no other command (R25). -/
theorem exec_command_D {w : BitVec 16} {s t : State} (h : exec (decodeCommand w) s = .next t) :
    (w = 0x0003#16 ∧ s.phase = .configured) ∨ t.D = s.D := by
  obtain ⟨-, he⟩ | ⟨_, _, -, -, -, he⟩ | ⟨_, _, -, -, he⟩ | ⟨-, -, he⟩ | ⟨-, -, -, he⟩ | ⟨-, -, -, he⟩ |
    ⟨-, -, he⟩ | ⟨hw, hp, he⟩ | ⟨-, -, he⟩ := exec_command_cases w s <;> cases he.symm.trans h
  case inr.inr.inr.inr.inr.inr.inr.inl => exact .inl ⟨hw, hp⟩
  all_goals exact .inr rfl

/-- CFG_N and CFG_DW stay as they are. -/
def sameCfg (s t : State) : Prop := t.cfgN = s.cfgN ∧ t.cfgDw = s.cfgDw

/-- The configuration is written by INIT, which with illegal fields clears PHASE and FIN only; FINALIZE sets FIN; the
other commands write none of it (R26, R27, R28). -/
theorem exec_command_configuration {w : BitVec 16} {s t : State} (h : exec (decodeCommand w) s = .next t) :
    (∃ dw n, w = 0#5 ++ n ++ dw ++ 1#4 ∧ legalDw dw = true ∧ legalN n = true ∧ t.cfgN = n ∧ t.cfgDw = dw ∧
      t.phase = .configured ∧ t.fin = false) ∨
    (∃ dw n, w = 0#5 ++ n ++ dw ++ 1#4 ∧ ¬ (legalDw dw = true ∧ legalN n = true) ∧ sameCfg s t ∧
      t.phase = .unconfigured ∧ t.fin = false) ∨
    (w = 0x0003#16 ∧ s.phase = .configured ∧ sameCfg s t ∧ t.phase = s.phase ∧ t.fin = true) ∨
    (sameCfg s t ∧ t.phase = s.phase ∧ t.fin = s.fin) := by
  obtain ⟨-, he⟩ | ⟨dw, n, hw, hdw, hn, he⟩ | ⟨dw, n, hw, hl, he⟩ | ⟨-, -, he⟩ | ⟨-, -, -, he⟩ | ⟨-, -, -, he⟩ |
    ⟨-, -, he⟩ | ⟨hw, hp, he⟩ | ⟨-, -, he⟩ := exec_command_cases w s <;> cases he.symm.trans h
  case inr.inl => exact .inl ⟨dw, n, hw, hdw, hn, rfl, rfl, rfl, rfl⟩
  case inr.inr.inl => exact .inr (.inl ⟨dw, n, hw, hl, ⟨rfl, rfl⟩, rfl, rfl⟩)
  case inr.inr.inr.inr.inr.inr.inr.inl => exact .inr (.inr (.inl ⟨hw, hp, ⟨rfl, rfl⟩, rfl, rfl⟩))
  all_goals exact .inr (.inr (.inr ⟨⟨rfl, rfl⟩, rfl, rfl⟩))

/-! ## Steps as writers -/

/-- Without reset, a step that accepts no command keeps D and the configuration, and only a step edge writes W, P and
S. -/
theorem step_writes_by_command_or_stepEdge {s t : State} (h : step s = .next t) (hr : s.resetNow = false) :
    (∃ w, s.acceptsNow w ∧ exec (decodeCommand w) (sampled s) = .next t) ∨
    (t.M = s.M ∧ t.D = s.D ∧ sameCfg s t ∧ t.phase = s.phase ∧ t.fin = s.fin ∧
      ((s.fsm = .run ∧ s.clockNow = true) ∨ (t.W = s.W ∧ t.P = s.P ∧ t.S = s.S))) := by
  obtain ⟨hr', -, -⟩ | ⟨hc, -, hrun, rfl⟩ | ⟨-, -, -, rfl⟩ | ⟨-, -, -, -, rfl⟩ | ⟨w, -, -, ha, he⟩ |
    ⟨_, _, _, _, -, -, rfl⟩ := step_cases h
  · simp [hr] at hr'
  · exact .inr (by simp [sameCfg, hrun, hc])
  · exact .inr (by simp [sameCfg])
  · exact .inr (by simp [sameCfg])
  · exact .inl ⟨w, ha, he⟩
  · exact .inr (by simp [sameCfg])

/-- Settles O36, by the writers among the commands and among the other edges. -/
theorem windowBlockAndDigestWriters : Obligations.WindowBlockAndDigestWriters := by
  intro s t h hr
  obtain ⟨w, ha, he⟩ | ⟨hM, hD, -, -, -, hrun | ⟨hW, hP, hS⟩⟩ := step_writes_by_command_or_stepEdge h hr
  · have hD : t.D ≠ s.D → s.acceptsNow 0x0003#16 ∧ s.phase = .configured := fun hne => by
      obtain ⟨rfl, hp⟩ | hD := exec_command_D he
      · exact ⟨ha, by simpa using hp⟩
      · exact absurd (by simpa using hD) hne
    obtain ⟨rfl, hst, rfl⟩ | ⟨hM, hW, hP, hS⟩ := exec_command_M_W_P_S he
    · have hst' : compressStarts s := by simpa using hst
      exact ⟨fun _ => ⟨ha, hst'⟩, fun _ => .inl ⟨ha, hst'⟩, hD, fun _ => .inl ⟨ha, hst', rfl, rfl⟩⟩
    · refine ⟨?_, ?_, hD, ?_⟩ <;> simp [hM, hW, hP, hS]
  · exact ⟨fun hne => absurd hM hne, fun _ => .inr hrun, fun hne => absurd hD hne, fun _ => .inr hrun⟩
  · simp [hM, hW, hD, hP, hS]

/-- Settles O37, by the one command that writes each register of the configuration. -/
theorem configurationWriters : Obligations.ConfigurationWriters := by
  intro s t h hr
  obtain ⟨w, ha, he⟩ | ⟨-, -, ⟨hn, hdw⟩, hp, hf, -⟩ := step_writes_by_command_or_stepEdge h hr
  · obtain ⟨dw, n, rfl, hldw, hln, hn, hdw, hp, hf⟩ | ⟨dw, n, rfl, hl, ⟨hn, hdw⟩, hp, hf⟩ |
      ⟨rfl, hp, ⟨hn, hdw⟩, hp', hf⟩ | ⟨⟨hn, hdw⟩, hp, hf⟩ := exec_command_configuration he
    · exact ⟨fun _ => ⟨dw, n, ha, hldw, hln, hn, hdw⟩, fun _ => ⟨dw, n, ha, by simp [hp, hldw, hln]⟩,
        fun _ => .inl ⟨hf, dw, n, ha⟩⟩
    · exact ⟨by simp [hn, hdw], fun _ => ⟨dw, n, ha, by simp [hp, hl]⟩, fun _ => .inl ⟨hf, dw, n, ha⟩⟩
    · exact ⟨by simp [hn, hdw], by simp [hp'], fun _ => .inr ⟨hf, ha, by simpa using hp⟩⟩
    · simp [hn, hdw, hp, hf]
  · simp [hn, hdw, hp, hf]

/-- Every clause meets a change: INIT with legal fields writes CFG and PHASE, INIT with illegal fields clears PHASE
and FIN, and FINALIZE sets FIN, each accepted without reset. -/
theorem witness_ConfigurationWriters :
    let s : State := { State.reset with inputs := [.edge false true 0x0341#16 State.reset.blkPort] }
    let s' : State := { State.reset with
      phase := .configured
      fin := true
      inputs := [.edge false true 0x0001#16 State.reset.blkPort] }
    let s'' : State := { State.reset with
      phase := .configured
      inputs := [.edge false true 0x0003#16 State.reset.blkPort] }
    (∃ t, step s = .next t ∧ s.resetNow = false ∧ t.cfgN ≠ s.cfgN ∧ t.cfgDw ≠ s.cfgDw ∧ t.phase ≠ s.phase) ∧
      (∃ t, step s' = .next t ∧ s'.resetNow = false ∧ t.phase ≠ s'.phase ∧ t.fin ≠ s'.fin) ∧
      ∃ t, step s'' = .next t ∧ s''.resetNow = false ∧ t.fin ≠ s''.fin :=
  ⟨⟨_, rfl, rfl, by decide, by decide, by decide⟩, ⟨_, rfl, rfl, by decide, by decide⟩, _, rfl, rfl, by decide⟩

/-! ## The ports after a reset edge -/

/-- With the control registers at their reset values only the CFG fields of a packed word can be set. -/
theorem packed_reset (n : BitVec 3) (dw : BitVec 4) :
    (packed n dw Status.ok.code false false Fsm.idle.busy Phase.unconfigured.bit).extractLsb' 0 8 = 0#8 ∧
      (packed n dw Status.ok.code false false Fsm.idle.busy Phase.unconfigured.bit).extractLsb' 15 1 = 0#1 := by
  revert n dw; decide

/-- Settles O28, by the values the reset edge writes, shown on the ports; on `status_out` by the packed word. -/
theorem outputsAfterReset : Obligations.OutputsAfterReset := by
  intro s t hr h
  cases h.symm.trans (step_of_resetNow hr)
  exact ⟨rfl, rfl, rfl, rfl, rfl, packed_reset _ _⟩

end Sys2Proof.Machine
end

section
/-! SUPPORT. Single facts about the command port, the units driven alone, and the interfaces of the model. -/

namespace Sys2Proof.Machine

/-! ## FINALIZE twice -/

/-- A FINALIZE in a configured core writes D, FIN and the status, and keeps ERR_STICKY (43_compression_core.md R210).
-/
theorem exec_finalize_eq {s : State} (hp : s.phase = .configured) :
    exec .finalize s = .next { s with
      D := latchedDigest s.any s.cfgDw s.H
      fin := true
      lastStatus := .ok
      rspValid := true } := by
  rw [exec_finalize_of_configured hp, complete_ok]

/-- Settles O8: the second FINALIZE latches the same digest of the same H, and completes with OK again. -/
theorem finalizeRepeatedChangesNothing : Obligations.FinalizeRepeatedChangesNothing := by
  intro s t hp _ _ h
  cases (exec_finalize_eq hp).symm.trans h
  exact exec_finalize_eq hp

/-! ## Units driven alone where their output is open -/

/-- Settles O11: the mux is driven with its reserved code, and the draw of its output is counted. -/
theorem muxReservedCodesOutputAnyValue : Obligations.MuxReservedCodesOutputAnyValue :=
  fun _ _ => ⟨⟨_, rfl⟩, ⟨_, rfl⟩⟩

/-- Settles O17: the tailor is driven with the length as it is, and the draw of its outputs is counted. -/
theorem tailorOtherLengthsOutputAnyValue : Obligations.TailorOtherLengthsOutputAnyValue :=
  fun _ _ => ⟨_, rfl⟩

/-- A read at an invalid address is counted as a draw (42_pass_schedule_rom.md R167). -/
theorem exec_romRead_invalid {n p : BitVec 3} (h : ¬ validRomAddr n p = true) (k : BitVec 5) (s : State) :
    exec (.romRead n p k) s = .next { s with romOut := romRead s.any n p k, draws := s.draws + 1 } := by
  simp [exec, execRomRead, h, afterDraw, tick]

/-- Settles O21, by the answer of ROM_READ at an invalid address. -/
theorem romInvalidAddressOutputsAnyValue : Obligations.RomInvalidAddressOutputsAnyValue := by
  intro s n p k hfields
  have hinvalid : ¬ validRomAddr n p = true := by rw [validRomAddr_iff]; omega
  exact ⟨_, exec_romRead_invalid hinvalid k s⟩

/-! ## What a step runs -/

theorem step_of_mux {s : State} {c : BitVec 3} {a : Vec7 Word} {rest : List Event} (hi : s.inputs = .mux c a :: rest) :
    step s = exec (decode (.fsel c)) { s with inputs := rest, muxIn := a, draws := s.draws + 1 } := by
  rw [step_eq, sampled_mux hi]
  simp [nextAction, hi, tick]

theorem step_of_tailor {s : State} {dw : BitVec 4} {x : Vec8 Word} {rest : List Event}
    (hi : s.inputs = .tailor dw x :: rest) :
    step s = exec (decode (.dw dw)) { s with inputs := rest, tailorIn := x, draws := s.draws + 1 } := by
  rw [step_eq, sampled_tailor hi]
  simp [nextAction, hi, tick]

theorem step_of_rom {s : State} {addr : BitVec 11} {rest : List Event} (hi : s.inputs = .rom addr :: rest) :
    step s = exec (decode (.romAddr addr)) { s with inputs := rest, draws := s.draws + 1 } := by
  rw [step_eq, sampled_rom hi]
  simp [nextAction, hi, tick]

theorem step_of_command {s : State} {w : BitVec 16} {blk : Vec32 Word} {rest : List Event} (hf : s.fsm = .idle)
    (hi : s.inputs = .edge false true w blk :: rest) :
    step s = exec (decode (.cmd w)) { s with inputs := rest, blkPort := blk, draws := s.draws + 1 } := by
  rw [step_of_acceptsNow ⟨hf, blk, rest, hi⟩, sampled_edge hi]
  rfl

/-- Settles O23, by the step on each set of wires. -/
theorem stepRunsDecodedInstruction : Obligations.StepRunsDecodedInstruction :=
  fun _ _ => ⟨fun _ _ => step_of_command, fun _ _ => step_of_mux, fun _ _ => step_of_tailor, fun _ => step_of_rom⟩

/-- A table word that decodes is a word on some wires, and presenting it presents that word (log 7, log 11). -/
theorem withFetchWord_of_decodeTableWord {nbits w : Nat} {i : Instr} (h : decodeTableWord nbits w = some i) :
    ∃ pw, decode pw = i ∧ ∀ s : State, s.withFetchWord nbits w = present pw s := by
  unfold decodeTableWord at h
  cases hw : tableWord nbits w with
  | error e => simp [hw] at h
  | ok pw => exact ⟨pw, by simpa [hw] using h, fun s => by simp [State.withFetchWord, presentTableWord, hw]⟩

/-- Settles O24, by the step on the wires where the word is presented. -/
theorem presentedWordRunsNext : Obligations.PresentedWordRunsNext := by
  intro s nbits w i h
  obtain ⟨pw, rfl, hpresent⟩ := withFetchWord_of_decodeTableWord h
  rw [hpresent]
  cases pw with
  | cmd w => exact ⟨_, step_of_command rfl rfl, rfl, fun _ => rfl⟩
  | fsel w => exact ⟨_, step_of_mux rfl, rfl, id⟩
  | dw w => exact ⟨_, step_of_tailor rfl, rfl, id⟩
  | romAddr w => exact ⟨_, step_of_rom rfl, rfl, id⟩

/-! ## Reset and the status codes -/

/-- Settles O27: the reset state names these values. -/
theorem resetStateHasGivenValues : Obligations.ResetStateHasGivenValues :=
  ⟨rfl, rfl, rfl, rfl, rfl, rfl⟩

/-- No two statuses share a code (60_exceptions.md R270). -/
theorem Status.code_injective {a b : Status} (h : a.code = b.code) : a = b := by
  cases a <;> cases b <;> simp_all [Status.code]

/-- Settles O55, by the codes, their injectivity, and what an error is. -/
theorem statusCodesAreDistinct : Obligations.StatusCodesAreDistinct :=
  ⟨rfl, rfl, rfl, rfl, rfl, fun _ _ => Status.code_injective, Status.isError_iff⟩

end Sys2Proof.Machine
end
